-- ==== Sys2Proof/Word.lean ====
section
/-! DEFINITION. The two word types of the 2650: the 8-bit data byte (00_scope.md R9) and the 15-bit address (20_memory.md R60). -/

namespace Sys2Proof

/-- A data byte, an instruction byte or a half of the program status word (00_scope.md R9, R11). -/
abbrev Byte := BitVec 8

/-- A 15-bit address: bits 14 and 13 are the page, bits 12 to 0 the address in the page (20_memory.md R60, R61). -/
abbrev Addr := BitVec 15

/-- An address within a page of 8,192 bytes (20_memory.md R61, R65). -/
abbrev Offset := BitVec 13

end Sys2Proof
end

