-- ==== Sys2Proof/Syntax.lean ====
section
/-! DEFINITION. The instructions of the 2650: one constructor per row of spec/opcode_table.json, with the operands of 30_encoding.md R103 to R116. -/

namespace Sys2Proof

/-- A register number (30_encoding.md R113): R0, or R1, R2, R3 of the bank that PSL.RS selects (10_state.md R22). -/
inductive Reg where
  | r0
  | r1
  | r2
  | r3
deriving DecidableEq, Repr

/-- The condition value v, a two-bit value compared with CC; 3 is unconditional (30_encoding.md R114). -/
abbrev CondVal := BitVec 2

/-- The operand of a relative instruction (30_encoding.md R106, ER of R109): the indirect bit and a 7-bit two's complement displacement. -/
structure RelArg where
  ind  : Bool
  disp : BitVec 7
deriving DecidableEq, Repr

/-- Index control, byte 1 bits 6 and 5 of format A (30_encoding.md R107): 00, 01, 10 and 11. -/
inductive IndexCtl where
  | none
  | inc
  | dec
  | plain
deriving DecidableEq, Repr

/-- The operand of an absolute non-branch instruction (30_encoding.md R107): indirect bit, index control, 13-bit address in the page. -/
structure AbsArg where
  ind  : Bool
  ic   : IndexCtl
  addr : Offset
deriving DecidableEq, Repr

/-- The operand of an absolute branch (30_encoding.md R108, EB of R109): indirect bit and a 15-bit address. -/
structure BrArg where
  ind  : Bool
  addr : Addr
deriving DecidableEq, Repr

/-- The 75 instructions (30_encoding.md R110), in the order of the opcode table. -/
inductive Instr where
  | lodz (r : Reg)
  | lodi (r : Reg) (v : Byte)
  | lodr (r : Reg) (a : RelArg)
  | loda (r : Reg) (a : AbsArg)
  | strz (r : Reg)
  | strr (r : Reg) (a : RelArg)
  | stra (r : Reg) (a : AbsArg)
  | addz (r : Reg)
  | addi (r : Reg) (v : Byte)
  | addr (r : Reg) (a : RelArg)
  | adda (r : Reg) (a : AbsArg)
  | subz (r : Reg)
  | subi (r : Reg) (v : Byte)
  | subr (r : Reg) (a : RelArg)
  | suba (r : Reg) (a : AbsArg)
  | andz (r : Reg)
  | andi (r : Reg) (v : Byte)
  | andr (r : Reg) (a : RelArg)
  | anda (r : Reg) (a : AbsArg)
  | iorz (r : Reg)
  | iori (r : Reg) (v : Byte)
  | iorr (r : Reg) (a : RelArg)
  | iora (r : Reg) (a : AbsArg)
  | eorz (r : Reg)
  | eori (r : Reg) (v : Byte)
  | eorr (r : Reg) (a : RelArg)
  | eora (r : Reg) (a : AbsArg)
  | comz (r : Reg)
  | comi (r : Reg) (v : Byte)
  | comr (r : Reg) (a : RelArg)
  | coma (r : Reg) (a : AbsArg)
  | rrl (r : Reg)
  | rrr (r : Reg)
  | lpsu
  | lpsl
  | spsu
  | spsl
  | ppsu (v : Byte)
  | ppsl (v : Byte)
  | cpsu (v : Byte)
  | cpsl (v : Byte)
  | tpsu (v : Byte)
  | tpsl (v : Byte)
  | zbrr (a : RelArg)
  | bctr (v : CondVal) (a : RelArg)
  | bcta (v : CondVal) (a : BrArg)
  | bcfr (v : CondVal) (a : RelArg)
  | bcfa (v : CondVal) (a : BrArg)
  | birr (r : Reg) (a : RelArg)
  | bira (r : Reg) (a : BrArg)
  | bdrr (r : Reg) (a : RelArg)
  | bdra (r : Reg) (a : BrArg)
  | brnr (r : Reg) (a : RelArg)
  | brna (r : Reg) (a : BrArg)
  | bxa (a : BrArg)
  | zbsr (a : RelArg)
  | bstr (v : CondVal) (a : RelArg)
  | bsta (v : CondVal) (a : BrArg)
  | bsfr (v : CondVal) (a : RelArg)
  | bsfa (v : CondVal) (a : BrArg)
  | bsnr (r : Reg) (a : RelArg)
  | bsna (r : Reg) (a : BrArg)
  | bsxa (a : BrArg)
  | retc (v : CondVal)
  | rete (v : CondVal)
  | redd (r : Reg)
  | redc (r : Reg)
  | rede (r : Reg) (v : Byte)
  | wrtd (r : Reg)
  | wrtc (r : Reg)
  | wrte (r : Reg) (v : Byte)
  | nop
  | tmi (r : Reg) (v : Byte)
  | dar (r : Reg)
  | halt
deriving DecidableEq, Repr

end Sys2Proof
end

