-- ==== Sys2Proof/WellFormed.lean ====
section
/-! DEFINITION. Which instruction terms the encoding admits: register 0 is not an operand of LODZ, STRZ and ANDZ (30_encoding.md R117), and the condition-false branches have no v = 3 (R120). Every other operand is legal at every value (R123). -/

namespace Sys2Proof

/-- The encoding admits this instruction with these operands (30_encoding.md R117, R120). -/
def Instr.wellFormed : Instr → Bool
  | .lodz r => decide (r ≠ .r0)
  | .lodi _ _ => true
  | .lodr _ _ => true
  | .loda _ _ => true
  | .strz r => decide (r ≠ .r0)
  | .strr _ _ => true
  | .stra _ _ => true
  | .addz _ => true
  | .addi _ _ => true
  | .addr _ _ => true
  | .adda _ _ => true
  | .subz _ => true
  | .subi _ _ => true
  | .subr _ _ => true
  | .suba _ _ => true
  | .andz r => decide (r ≠ .r0)
  | .andi _ _ => true
  | .andr _ _ => true
  | .anda _ _ => true
  | .iorz _ => true
  | .iori _ _ => true
  | .iorr _ _ => true
  | .iora _ _ => true
  | .eorz _ => true
  | .eori _ _ => true
  | .eorr _ _ => true
  | .eora _ _ => true
  | .comz _ => true
  | .comi _ _ => true
  | .comr _ _ => true
  | .coma _ _ => true
  | .rrl _ => true
  | .rrr _ => true
  | .lpsu => true
  | .lpsl => true
  | .spsu => true
  | .spsl => true
  | .ppsu _ => true
  | .ppsl _ => true
  | .cpsu _ => true
  | .cpsl _ => true
  | .tpsu _ => true
  | .tpsl _ => true
  | .zbrr _ => true
  | .bctr _ _ => true
  | .bcta _ _ => true
  | .bcfr v _ => decide (v ≠ 3)
  | .bcfa v _ => decide (v ≠ 3)
  | .birr _ _ => true
  | .bira _ _ => true
  | .bdrr _ _ => true
  | .bdra _ _ => true
  | .brnr _ _ => true
  | .brna _ _ => true
  | .bxa _ => true
  | .zbsr _ => true
  | .bstr _ _ => true
  | .bsta _ _ => true
  | .bsfr v _ => decide (v ≠ 3)
  | .bsfa v _ => decide (v ≠ 3)
  | .bsnr _ _ => true
  | .bsna _ _ => true
  | .bsxa _ => true
  | .retc _ => true
  | .rete _ => true
  | .redd _ => true
  | .redc _ => true
  | .rede _ _ => true
  | .wrtd _ => true
  | .wrtc _ => true
  | .wrte _ _ => true
  | .nop => true
  | .tmi _ _ => true
  | .dar _ => true
  | .halt => true

end Sys2Proof
end

