-- ==== Sys2Proof/Decode.lean ====
section
/-! DEFINITION. The decoder, total on any bytes and rejecting by name, then the encoder, both from 30_encoding.md (fields R101, formats R103 to R109, opcode map R110 to R112, exceptions R117 to R120, lengths R124). -/

namespace Sys2Proof

/-- Why bytes are no instruction. -/
inductive DecodeError where
  /-- Fewer bytes than the first byte asks for (30_encoding.md R124). -/
  | truncated
  /-- First byte H'00', which "yields indeterminate results" (30_encoding.md R119). -/
  | indeterminate
  /-- One of the ten first bytes to which no source assigns a mnemonic (30_encoding.md R118). -/
  | unassigned (byte0 : Byte)
deriving DecidableEq, Repr

/-- The function field, byte 0 bits 7 to 5 (30_encoding.md R101). -/
def functionField (b0 : Byte) : Nat := (b0.extractLsb' 5 3).toNat

/-- The class field, byte 0 bits 4 to 2 (30_encoding.md R101). -/
def classField (b0 : Byte) : Nat := (b0.extractLsb' 2 3).toNat

/-- The register field, byte 0 bits 1 and 0 (30_encoding.md R101). -/
def registerField (b0 : Byte) : BitVec 2 := b0.extractLsb' 0 2

/-- The register a two-bit register number names (30_encoding.md R113). -/
def Reg.ofBits (n : BitVec 2) : Reg :=
  match n.toNat with
  | 0 => .r0
  | 1 => .r1
  | 2 => .r2
  | _ => .r3

/-- The number of a register in an instruction (30_encoding.md R113). -/
def Reg.toBits : Reg → BitVec 2
  | .r0 => 0
  | .r1 => 1
  | .r2 => 2
  | .r3 => 3

/-- Index control from byte 1 bits 6 and 5 (30_encoding.md R107). -/
def IndexCtl.ofBits (n : BitVec 2) : IndexCtl :=
  match n.toNat with
  | 0 => .none
  | 1 => .inc
  | 2 => .dec
  | _ => .plain

/-- The two bits of an index control (30_encoding.md R107). -/
def IndexCtl.toBits : IndexCtl → BitVec 2
  | .none => 0
  | .inc => 1
  | .dec => 2
  | .plain => 3

/-- Byte 1 of formats R and ER (30_encoding.md R106, R109); the vector byte of an interrupt has the same form (60_exceptions.md R347). -/
def RelArg.ofByte (b1 : Byte) : RelArg :=
  { ind := b1.getLsbD 7, disp := b1.extractLsb' 0 7 }

/-- Bytes 1 and 2 of format A (30_encoding.md R107, R115). -/
def AbsArg.ofBytes (b1 b2 : Byte) : AbsArg :=
  { ind := b1.getLsbD 7, ic := IndexCtl.ofBits (b1.extractLsb' 5 2), addr := b1.extractLsb' 0 5 ++ b2 }

/-- Bytes 1 and 2 of formats B and EB (30_encoding.md R108, R109, R115). -/
def BrArg.ofBytes (b1 b2 : Byte) : BrArg :=
  { ind := b1.getLsbD 7, addr := b1.extractLsb' 0 7 ++ b2 }

/-- The ten unassigned first bytes (30_encoding.md R111, R118). -/
def unassignedBytes : List Byte :=
  [0x10, 0x11, 0x90, 0x91, 0xB6, 0xB7, 0xC4, 0xC5, 0xC6, 0xC7]

/-- The number of bytes of an instruction from its first byte, `length(byte0)` of 30_encoding.md R124. -/
def instrLength (b0 : Byte) : Except DecodeError Nat :=
  if b0 = 0x00 then .error .indeterminate
  else if b0 ∈ unassignedBytes then .error (.unassigned b0)
  else match classField b0 with
    | 0 => .ok 1
    | 1 => .ok 2
    | 2 => .ok 2
    | 3 => .ok 3
    | 4 => .ok 1
    | 5 => if functionField b0 = 0 ∨ functionField b0 = 1 ∨ functionField b0 = 4 then .ok 1 else .ok 2
    | 6 => .ok 2
    | _ => .ok 3

/-- Class 0, register addressing (30_encoding.md R112), with the three codes taken out of it (R117, R119). -/
def decodeClass0 (fn : Nat) (x : BitVec 2) : Except DecodeError Instr :=
  match fn with
  | 0 => if x = 0 then .error .indeterminate else .ok (.lodz (Reg.ofBits x))
  | 1 => .ok (.eorz (Reg.ofBits x))
  | 2 => if x = 0 then .ok .halt else .ok (.andz (Reg.ofBits x))
  | 3 => .ok (.iorz (Reg.ofBits x))
  | 4 => .ok (.addz (Reg.ofBits x))
  | 5 => .ok (.subz (Reg.ofBits x))
  | 6 => if x = 0 then .ok .nop else .ok (.strz (Reg.ofBits x))
  | _ => .ok (.comz (Reg.ofBits x))

/-- Class 1, immediate addressing; function 6 is unassigned (30_encoding.md R112). -/
def decodeClass1 (fn : Nat) (b0 : Byte) (r : Reg) (v : Byte) : Except DecodeError Instr :=
  match fn with
  | 0 => .ok (.lodi r v)
  | 1 => .ok (.eori r v)
  | 2 => .ok (.andi r v)
  | 3 => .ok (.iori r v)
  | 4 => .ok (.addi r v)
  | 5 => .ok (.subi r v)
  | 6 => .error (.unassigned b0)
  | _ => .ok (.comi r v)

/-- Class 2, relative addressing (30_encoding.md R112). -/
def decodeClass2 (fn : Nat) (r : Reg) (a : RelArg) : Instr :=
  match fn with
  | 0 => .lodr r a
  | 1 => .eorr r a
  | 2 => .andr r a
  | 3 => .iorr r a
  | 4 => .addr r a
  | 5 => .subr r a
  | 6 => .strr r a
  | _ => .comr r a

/-- Class 3, absolute addressing (30_encoding.md R112). -/
def decodeClass3 (fn : Nat) (r : Reg) (a : AbsArg) : Instr :=
  match fn with
  | 0 => .loda r a
  | 1 => .eora r a
  | 2 => .anda r a
  | 3 => .iora r a
  | 4 => .adda r a
  | 5 => .suba r a
  | 6 => .stra r a
  | _ => .coma r a

/-- Class 4, one-byte control group (30_encoding.md R112). -/
def decodeClass4 (fn : Nat) (b0 : Byte) (x : BitVec 2) : Except DecodeError Instr :=
  match fn with
  | 0 => if x = 2 then .ok .spsu else if x = 3 then .ok .spsl else .error (.unassigned b0)
  | 1 => .ok (.redc (Reg.ofBits x))
  | 2 => .ok (.rrr (Reg.ofBits x))
  | 3 => .ok (.redd (Reg.ofBits x))
  | 4 => if x = 2 then .ok .lpsu else if x = 3 then .ok .lpsl else .error (.unassigned b0)
  | 5 => .ok (.wrtc (Reg.ofBits x))
  | 6 => .ok (.rrl (Reg.ofBits x))
  | _ => .ok (.wrtd (Reg.ofBits x))

/-- Class 5, control group of one or two bytes (30_encoding.md R112). -/
def decodeClass5 (fn : Nat) (b0 : Byte) (x : BitVec 2) (v : Byte) : Except DecodeError Instr :=
  match fn with
  | 0 => .ok (.retc x)
  | 1 => .ok (.rete x)
  | 2 => .ok (.rede (Reg.ofBits x) v)
  | 3 =>
    match x.toNat with
    | 0 => .ok (.cpsu v)
    | 1 => .ok (.cpsl v)
    | 2 => .ok (.ppsu v)
    | _ => .ok (.ppsl v)
  | 4 => .ok (.dar (Reg.ofBits x))
  | 5 => if x = 0 then .ok (.tpsu v) else if x = 1 then .ok (.tpsl v) else .error (.unassigned b0)
  | 6 => .ok (.wrte (Reg.ofBits x) v)
  | _ => .ok (.tmi (Reg.ofBits x) v)

/-- Class 6, relative branches, with ZBRR and ZBSR in the slots v = 3 of functions 4 and 5 (30_encoding.md R112, R120). -/
def decodeClass6 (fn : Nat) (x : BitVec 2) (a : RelArg) : Instr :=
  match fn with
  | 0 => .bctr x a
  | 1 => .bstr x a
  | 2 => .brnr (Reg.ofBits x) a
  | 3 => .bsnr (Reg.ofBits x) a
  | 4 => if x = 3 then .zbrr a else .bcfr x a
  | 5 => if x = 3 then .zbsr a else .bsfr x a
  | 6 => .birr (Reg.ofBits x) a
  | _ => .bdrr (Reg.ofBits x) a

/-- Class 7, absolute branches, with BXA and BSXA in the slots v = 3 of functions 4 and 5 (30_encoding.md R112, R120). -/
def decodeClass7 (fn : Nat) (x : BitVec 2) (a : BrArg) : Instr :=
  match fn with
  | 0 => .bcta x a
  | 1 => .bsta x a
  | 2 => .brna (Reg.ofBits x) a
  | 3 => .bsna (Reg.ofBits x) a
  | 4 => if x = 3 then .bxa a else .bcfa x a
  | 5 => if x = 3 then .bsxa a else .bsfa x a
  | 6 => .bira (Reg.ofBits x) a
  | _ => .bdra (Reg.ofBits x) a

/-- The instruction of three bytes, the ones its length does not reach unused (30_encoding.md R102, R112). -/
def decodeBytes (b0 b1 b2 : Byte) : Except DecodeError Instr :=
  let fn := functionField b0
  let x := registerField b0
  let r := Reg.ofBits x
  match classField b0 with
  | 0 => decodeClass0 fn x
  | 1 => decodeClass1 fn b0 r b1
  | 2 => .ok (decodeClass2 fn r (RelArg.ofByte b1))
  | 3 => .ok (decodeClass3 fn r (AbsArg.ofBytes b1 b2))
  | 4 => decodeClass4 fn b0 x
  | 5 => decodeClass5 fn b0 x b1
  | 6 => .ok (decodeClass6 fn x (RelArg.ofByte b1))
  | _ => .ok (decodeClass7 fn x (BrArg.ofBytes b1 b2))

/-- Decode the instruction at the head of a list of bytes, with the bytes that follow it. -/
def decode : List Byte → Except DecodeError (Instr × List Byte)
  | [] => .error .truncated
  | b0 :: rest =>
    match instrLength b0 with
    | .error e => .error e
    | .ok n =>
      if rest.length + 1 < n then .error .truncated
      else match decodeBytes b0 (rest.getD 0 0) (rest.getD 1 0) with
        | .error e => .error e
        | .ok i => .ok (i, rest.drop (n - 1))

/-- Byte 0 of an instruction with a register number or a condition value (30_encoding.md R104 to R108). -/
def byte0 (op : Byte) (x : BitVec 2) : Byte := op ||| x.setWidth 8

/-- Byte 1 of formats R and ER (30_encoding.md R106). -/
def RelArg.byte1 (a : RelArg) : Byte := BitVec.ofBool a.ind ++ a.disp

/-- Byte 1 of format A (30_encoding.md R107). -/
def AbsArg.byte1 (a : AbsArg) : Byte := BitVec.ofBool a.ind ++ (a.ic.toBits ++ a.addr.extractLsb' 8 5)

/-- Byte 2 of format A (30_encoding.md R107). -/
def AbsArg.byte2 (a : AbsArg) : Byte := a.addr.extractLsb' 0 8

/-- Byte 1 of formats B and EB (30_encoding.md R108). -/
def BrArg.byte1 (a : BrArg) : Byte := BitVec.ofBool a.ind ++ a.addr.extractLsb' 8 7

/-- Byte 2 of formats B and EB (30_encoding.md R108). -/
def BrArg.byte2 (a : BrArg) : Byte := a.addr.extractLsb' 0 8

/-- The bytes of an instruction, byte 0 first (30_encoding.md R110). -/
def encode : Instr → List Byte
  | .lodz r => [byte0 0x00 r.toBits]
  | .lodi r v => [byte0 0x04 r.toBits, v]
  | .lodr r a => [byte0 0x08 r.toBits, a.byte1]
  | .loda r a => [byte0 0x0C r.toBits, a.byte1, a.byte2]
  | .strz r => [byte0 0xC0 r.toBits]
  | .strr r a => [byte0 0xC8 r.toBits, a.byte1]
  | .stra r a => [byte0 0xCC r.toBits, a.byte1, a.byte2]
  | .addz r => [byte0 0x80 r.toBits]
  | .addi r v => [byte0 0x84 r.toBits, v]
  | .addr r a => [byte0 0x88 r.toBits, a.byte1]
  | .adda r a => [byte0 0x8C r.toBits, a.byte1, a.byte2]
  | .subz r => [byte0 0xA0 r.toBits]
  | .subi r v => [byte0 0xA4 r.toBits, v]
  | .subr r a => [byte0 0xA8 r.toBits, a.byte1]
  | .suba r a => [byte0 0xAC r.toBits, a.byte1, a.byte2]
  | .andz r => [byte0 0x40 r.toBits]
  | .andi r v => [byte0 0x44 r.toBits, v]
  | .andr r a => [byte0 0x48 r.toBits, a.byte1]
  | .anda r a => [byte0 0x4C r.toBits, a.byte1, a.byte2]
  | .iorz r => [byte0 0x60 r.toBits]
  | .iori r v => [byte0 0x64 r.toBits, v]
  | .iorr r a => [byte0 0x68 r.toBits, a.byte1]
  | .iora r a => [byte0 0x6C r.toBits, a.byte1, a.byte2]
  | .eorz r => [byte0 0x20 r.toBits]
  | .eori r v => [byte0 0x24 r.toBits, v]
  | .eorr r a => [byte0 0x28 r.toBits, a.byte1]
  | .eora r a => [byte0 0x2C r.toBits, a.byte1, a.byte2]
  | .comz r => [byte0 0xE0 r.toBits]
  | .comi r v => [byte0 0xE4 r.toBits, v]
  | .comr r a => [byte0 0xE8 r.toBits, a.byte1]
  | .coma r a => [byte0 0xEC r.toBits, a.byte1, a.byte2]
  | .rrl r => [byte0 0xD0 r.toBits]
  | .rrr r => [byte0 0x50 r.toBits]
  | .lpsu => [0x92]
  | .lpsl => [0x93]
  | .spsu => [0x12]
  | .spsl => [0x13]
  | .ppsu v => [0x76, v]
  | .ppsl v => [0x77, v]
  | .cpsu v => [0x74, v]
  | .cpsl v => [0x75, v]
  | .tpsu v => [0xB4, v]
  | .tpsl v => [0xB5, v]
  | .zbrr a => [0x9B, a.byte1]
  | .bctr v a => [byte0 0x18 v, a.byte1]
  | .bcta v a => [byte0 0x1C v, a.byte1, a.byte2]
  | .bcfr v a => [byte0 0x98 v, a.byte1]
  | .bcfa v a => [byte0 0x9C v, a.byte1, a.byte2]
  | .birr r a => [byte0 0xD8 r.toBits, a.byte1]
  | .bira r a => [byte0 0xDC r.toBits, a.byte1, a.byte2]
  | .bdrr r a => [byte0 0xF8 r.toBits, a.byte1]
  | .bdra r a => [byte0 0xFC r.toBits, a.byte1, a.byte2]
  | .brnr r a => [byte0 0x58 r.toBits, a.byte1]
  | .brna r a => [byte0 0x5C r.toBits, a.byte1, a.byte2]
  | .bxa a => [0x9F, a.byte1, a.byte2]
  | .zbsr a => [0xBB, a.byte1]
  | .bstr v a => [byte0 0x38 v, a.byte1]
  | .bsta v a => [byte0 0x3C v, a.byte1, a.byte2]
  | .bsfr v a => [byte0 0xB8 v, a.byte1]
  | .bsfa v a => [byte0 0xBC v, a.byte1, a.byte2]
  | .bsnr r a => [byte0 0x78 r.toBits, a.byte1]
  | .bsna r a => [byte0 0x7C r.toBits, a.byte1, a.byte2]
  | .bsxa a => [0xBF, a.byte1, a.byte2]
  | .retc v => [byte0 0x14 v]
  | .rete v => [byte0 0x34 v]
  | .redd r => [byte0 0x70 r.toBits]
  | .redc r => [byte0 0x30 r.toBits]
  | .rede r v => [byte0 0x54 r.toBits, v]
  | .wrtd r => [byte0 0xF0 r.toBits]
  | .wrtc r => [byte0 0xB0 r.toBits]
  | .wrte r v => [byte0 0xD4 r.toBits, v]
  | .nop => [0xC0]
  | .tmi r v => [byte0 0xF4 r.toBits, v]
  | .dar r => [byte0 0x94 r.toBits]
  | .halt => [0x40]

/-- The three bytes at the low end of a number laid out as spec/opcode_table.json numbers an instruction's bits: byte 0 in bits 7 to 0, byte 1 in bits 15 to 8, byte 2 in bits 23 to 16; bits from `nbits` up are 0. -/
def tableBytes (nbits w : Nat) : List Byte :=
  let u := w % 2 ^ nbits
  [BitVec.ofNat 8 u, BitVec.ofNat 8 (u / 256), BitVec.ofNat 8 (u / 65536)]

/-- The instruction the decoder reads from an opcode-table word. -/
def decodeTableWord (nbits w : Nat) : Option Instr :=
  match decode (tableBytes nbits w) with
  | .ok (i, _) => some i
  | .error _ => none

end Sys2Proof
end

