-- ==== Sys2Proof/Config.lean ====
section
/-! DEFINITION. The free values: constants without a body, one for each value the spec leaves open (93_implementation_defined.md section 1). Nothing can prove which value they take; every claim holds for all of them. The run states and the external operations stand here because a free value holds them. -/

namespace Sys2Proof

namespace Machine

/-- The three run states (10_state.md R46). -/
inductive RunState where
  | run
  | waitHalt
  | waitPause
deriving DecidableEq, Repr, Inhabited

/-- The two non-extended I/O ports (20_memory.md R82). -/
inductive Port where
  | data
  | control
deriving DecidableEq, Repr

/-- An external operation (20_memory.md R80) with the byte on the data bus. -/
inductive BusOp where
  | memRead (a : Addr) (v : Byte)
  | memWrite (a : Addr) (v : Byte)
  | portRead (p : Port) (v : Byte)
  | portWrite (p : Port) (v : Byte)
  | extRead (dev v : Byte)
  | extWrite (dev v : Byte)
  | intAck (v : Byte)
deriving DecidableEq, Repr

end Machine

/-- The items of chip state that neither RESET nor power-up gives a value (10_state.md R49): `POWERUP_STATE` of 00_scope.md R10. -/
structure PowerUp where
  r0 : Byte
  r1 : Byte
  r2 : Byte
  r3 : Byte
  r1' : Byte
  r2' : Byte
  r3' : Byte
  psl : Byte
  flag : Bool
  sp : BitVec 3
  ras : Vector Addr 8
deriving DecidableEq, Repr, Inhabited

/-- What may follow a first byte with no mnemonic where the policy is "any state afterwards": every item of chip state, and any external operations on the way (92_eei_decisions.md D1, D2). -/
structure AnyState where
  chip         : PowerUp
  iar          : Addr
  ii           : Bool
  intWaiting   : Bool
  runState     : Machine.RunState
  ir           : Byte
  /-- Whether byte 0 at the new IAR was fetched ahead (log entries 11, 23). -/
  fetchedAhead : Bool
  ops          : List Machine.BusOp
deriving DecidableEq, Repr, Inhabited

/-- What a byte of RAM or ROM that nothing has stored holds: any value, fixed at the start, per address (93_implementation_defined.md item 5, `MEM_INIT`). Log entry 3. -/
opaque Config.ramInit : Addr → Byte

/-- The n-th byte read where nothing drives the data bus: any value, fresh at each read (93_implementation_defined.md item 10; 92_eei_decisions.md D21). Log entry 5. -/
opaque Config.freeByte : Nat → Byte

/-- The condition code the n-th open value leaves after DAR: any of 00, 01, 10, 11, fresh at each DAR (93_implementation_defined.md item 6; 92_eei_decisions.md D8). Log entry 7. -/
opaque Config.freeCC : Nat → BitVec 2

/-- What a RESET of a running chip leaves in the items it does not name: any value (93_implementation_defined.md items 4 and 29; 92_eei_decisions.md D22). Log entry 2. -/
opaque Config.powerUp : Nat → PowerUp

/-- What follows a first byte with no mnemonic where the policy is "any state afterwards" (93_implementation_defined.md items 1 and 2; 92_eei_decisions.md D1, D2). Log entry 23. -/
opaque Config.anyState : Nat → AnyState

end Sys2Proof
end

