-- ==== Sys2Proof/Machine/State.lean ====
section
/-! DEFINITION. The state of the machine: the chip's own state (10_state.md R20), memory (20_memory.md R60), and the platform's parameters as plain data (00_scope.md R10), with the reasons a step can stop. -/

namespace Sys2Proof.Machine

/-- One bank of R1, R2, R3 (10_state.md R21). -/
structure Bank where
  r1 : Byte
  r2 : Byte
  r3 : Byte
deriving DecidableEq, Repr

/-- What stands behind an address, `MEM_MAP` (00_scope.md R10; 20_memory.md R62, R63, R84). -/
inductive MemKind where
  | ram
  | rom
  | device
  | nothing
deriving DecidableEq, Repr

/-- Addresses `first` to `last` have this kind. -/
structure Region where
  first : Nat
  last  : Nat
  kind  : MemKind
deriving DecidableEq, Repr

/-- What a run does at a first byte with no mnemonic: it stops, or any state may follow (92_eei_decisions.md D1, D2; 60_exceptions.md R341). -/
inductive OpcodePolicy where
  | stop
  | anyState
deriving DecidableEq, Repr

/-- What the platform fixes for a whole run (00_scope.md R10). No step changes it. -/
structure Platform where
  /-- `MEM_MAP`: the first region that holds an address gives its kind; an address in none is RAM. -/
  memMap         : List Region
  /-- `OPCODE00_POLICY` (92_eei_decisions.md D1). -/
  opcode00       : OpcodePolicy
  /-- `UNASSIGNED_POLICY` (92_eei_decisions.md D2). -/
  unassigned     : OpcodePolicy
  /-- Whether an indirect branch that is not taken reads its pointer: 92_eei_decisions.md D18 says it does not, and 93_implementation_defined.md item 22 asks a model with devices in memory for a parameter. -/
  untakenPointer : Bool
deriving DecidableEq, Repr

/-- Where a device is reached: a non-extended port, an extended address, a memory address that `MEM_MAP` marks as device, and the interrupt acknowledge (10_state.md R48; 92_eei_decisions.md D11, D13). -/
inductive Place where
  | port (p : Port)
  | extended (dev : Byte)
  | memory (a : Addr)
  | vector
deriving DecidableEq, Repr

/-- A device: its place, and the bytes it will put on the data bus, one at each read of that place. -/
structure Device where
  place   : Place
  answers : List Byte
deriving DecidableEq, Repr

/-- What the environment does during one step (10_state.md R47): the Sense level, whether INTREQ, PAUSE and RESET are asserted, and the bytes a DMA master writes (20_memory.md R76). -/
structure Input where
  sense      : Bool
  intreq     : Bool
  pause      : Bool
  reset      : Bool
  /-- When RESET is asserted: how far the step had come before, counted in operations that memory or a device can tell; 0 is the boundary (70_reset_and_hazards.md R380; log entry 25). -/
  resetAfter : Nat
  dma        : List (Addr × Byte)
deriving DecidableEq, Repr

/-- The environment's parameters (00_scope.md R10) as data, and the model's counter of free values. -/
structure Env where
  /-- What the platform fixes. -/
  platform : Platform
  /-- What the environment does during the present step. -/
  now      : Input
  /-- What it does during the steps after this one; when the list is used up the levels stay. -/
  later    : List Input
  /-- `IO_ENV` and the vector bytes of `INT_ENV`: the devices there are, each with its own answers; the first at a place counts, and a place that is not listed has no device. -/
  devices  : List Device
  /-- The operations that reached a device or a port, newest first (48_io.md R300 (e)). -/
  ops      : List BusOp
  /-- How many free values have been drawn (the model's own field). -/
  draws    : Nat
deriving DecidableEq, Repr

/-- Memory: (address, byte) pairs, addresses strictly rising; an address not listed has had nothing stored in it. -/
abbrev Memory := List Host.Cell

/-- The state of the 2650 (10_state.md R20), with memory and the environment; one field is the model's own. -/
structure State where
  /-- R0 (10_state.md R21). -/
  r0         : Byte
  /-- R1 to R3 of bank 0 (10_state.md R21). -/
  bank0      : Bank
  /-- R1 to R3 of bank 1 (10_state.md R21). -/
  bank1      : Bank
  /-- The instruction address register; bits 14 and 13 are the page latches (10_state.md R24). -/
  iar        : Addr
  /-- PSU.F (10_state.md R28). -/
  flag       : Bool
  /-- PSU.II (10_state.md R29). -/
  ii         : Bool
  /-- PSU.SP (10_state.md R31). -/
  sp         : BitVec 3
  /-- The Program Status Lower (10_state.md R33). -/
  psl        : Byte
  /-- The return address stack (10_state.md R32). -/
  ras        : Vector Addr 8
  /-- The interrupt-waiting latch (10_state.md R45; 92_eei_decisions.md D13). -/
  intWaiting : Bool
  /-- RUN, WAIT-by-HALT or WAIT-by-PAUSE (10_state.md R46). -/
  runState   : RunState
  /-- The instruction register: byte 0 of the last instruction fetched, or the byte prefetched before a PAUSE wait (10_state.md R44; 70_reset_and_hazards.md R400). -/
  ir         : Byte
  /-- Byte 0 at IAR was fetched ahead, by the last cycle of an instruction: false until one has run since RESET, and free after any state afterwards (70_reset_and_hazards.md R400 (d); the model's own field, log entries 11, 23). -/
  fetchedAhead : Bool
  /-- Memory (20_memory.md R60). -/
  mem        : Memory
  /-- The environment (00_scope.md R10). -/
  env        : Env
deriving DecidableEq, Repr

/-- The two model outcomes of 60_exceptions.md R341. -/
inductive Fault where
  /-- Raised by the fetch of an instruction whose byte 0, at `addr`, is H'00', where `OPCODE00_POLICY` is to stop (30_encoding.md R119). Safe: nothing is claimed of the chip after it. -/
  | indeterminateOpcode (addr : Addr)
  /-- Raised by the fetch of an instruction whose byte 0, at `addr`, is one of the ten unassigned bytes, where `UNASSIGNED_POLICY` is to stop (30_encoding.md R118). Safe: nothing is claimed of the chip after it. -/
  | unassignedOpcode (addr : Addr) (byte0 : Byte)
deriving DecidableEq, Repr

/-- Why the model gives an instruction no meaning. -/
inductive Refusal where
  /-- Raised by an arm of exec whose instruction has no meaning yet; no arm does. Safe: the run stops. -/
  | notModelled (mnemonic : String)
deriving DecidableEq, Repr

/-- The outcome of a step or of a meaning. -/
abbrev Result := Host.Outcome State Fault Refusal

/-- An environment in which nothing is asserted. -/
def Input.idle : Input :=
  { sense := false, intreq := false, pause := false, reset := false, resetAfter := 0, dma := [] }

/-- The machine right after RESET (10_state.md R49, 70_reset_and_hazards.md R380): IAR, II, the interrupt-waiting latch and the run state as the spec gives them; the rest as log entries 1, 3, 4, 6, 8, 11, 16, 23 and 31 say. -/
def State.reset : State where
  r0 := 0
  bank0 := { r1 := 0, r2 := 0, r3 := 0 }
  bank1 := { r1 := 0, r2 := 0, r3 := 0 }
  iar := 0
  flag := false
  ii := false
  sp := 0
  psl := 0
  ras := Vector.replicate 8 0
  intWaiting := false
  runState := .run
  ir := 0
  fetchedAhead := false
  mem := []
  env :=
    { platform := { memMap := [], opcode00 := .stop, unassigned := .stop, untakenPointer := false }
      now := Input.idle, later := [], devices := [], ops := [], draws := 0 }

end Sys2Proof.Machine
end

