-- ==== Sys2Proof/Machine/Flags.lean ====
section
/-! DEFINITION. The fields of the Program Status Lower and every flag computation of the spec: SetCC, Add8, Sub8, Compare, the rotates, the bit tests and decimal adjust. -/

namespace Sys2Proof.Machine

/-- PSL.CC, bits 7 and 6 (10_state.md R33, R34). -/
def ccOf (p : Byte) : BitVec 2 := p.extractLsb' 6 2

/-- PSL.IDC, bit 5 (10_state.md R37). -/
def idcOf (p : Byte) : Bool := p.getLsbD 5

/-- PSL.RS, bit 4 (10_state.md R38). -/
def rsOf (p : Byte) : Bool := p.getLsbD 4

/-- PSL.WC, bit 3 (10_state.md R39). -/
def wcOf (p : Byte) : Bool := p.getLsbD 3

/-- PSL.OVF, bit 2 (10_state.md R40). -/
def ovfOf (p : Byte) : Bool := p.getLsbD 2

/-- PSL.COM, bit 1 (10_state.md R41). -/
def comOf (p : Byte) : Bool := p.getLsbD 1

/-- PSL.C, bit 0 (10_state.md R42). -/
def cOf (p : Byte) : Bool := p.getLsbD 0

/-- The PSL with these fields (10_state.md R33). -/
def packPsl (cc : BitVec 2) (idc rs wc ovf com c : Bool) : Byte :=
  cc ++ (BitVec.ofBool idc ++ (BitVec.ofBool rs ++ (BitVec.ofBool wc ++
    (BitVec.ofBool ovf ++ (BitVec.ofBool com ++ BitVec.ofBool c)))))

/-- The PSL with CC replaced. -/
def withCC (p : Byte) (cc : BitVec 2) : Byte :=
  packPsl cc (idcOf p) (rsOf p) (wcOf p) (ovfOf p) (comOf p) (cOf p)

/-- The PSL with CC, IDC, OVF and C replaced: the bits data-handling instructions can affect (10_state.md R33). -/
def withArith (p : Byte) (cc : BitVec 2) (idc ovf c : Bool) : Byte :=
  packPsl cc idc (rsOf p) (wcOf p) ovf (comOf p) c

/-- The condition code of a byte, `SetCC` of 10_state.md R35: 00 zero, 01 positive, 10 negative. -/
def signCC (v : Byte) : BitVec 2 :=
  if v = 0 then 0b00 else if v.msb then 0b10 else 0b01

/-- `SetCC(v)` on the PSL (10_state.md R35). -/
def setCC (p v : Byte) : Byte := withCC p (signCC v)

/-- The carry into the adder for an add: C when WC = 1, else 0 (41_arithmetic.md R160). -/
def addCarryIn (p : Byte) : Bool := wcOf p && cOf p

/-- The carry into the adder for a subtract: C when WC = 1, else 1 (41_arithmetic.md R161). -/
def subCarryIn (p : Byte) : Bool := !wcOf p || cOf p

/-- The 9-bit sum of the adder (41_arithmetic.md R160). -/
def sum9 (a b : Byte) (cin : Bool) : BitVec 9 :=
  a.setWidth 9 + b.setWidth 9 + (BitVec.ofBool cin).setWidth 9

/-- The carry out of bit 3 of the adder (41_arithmetic.md R160, R161). -/
def halfCarry (a b : Byte) (cin : Bool) : Bool :=
  decide (15 < (a.extractLsb' 0 4).toNat + (b.extractLsb' 0 4).toNat + cin.toNat)

/-- `Add8(a, b)`: the result and the new PSL (41_arithmetic.md R160). -/
def add8 (p a b : Byte) : Byte × Byte :=
  let cin := addCarryIn p
  let sum := sum9 a b cin
  let res : Byte := sum.extractLsb' 0 8
  (res, withArith p (signCC res) (halfCarry a b cin) (a.msb == b.msb && res.msb != a.msb) (sum.getLsbD 8))

/-- `Sub8(a, b)`: the result of a - b and the new PSL (41_arithmetic.md R161; 90_conflicts.md C16). -/
def sub8 (p a b : Byte) : Byte × Byte :=
  let cin := subCarryIn p
  let sum := sum9 a (~~~b) cin
  let res : Byte := sum.extractLsb' 0 8
  (res, withArith p (signCC res) (halfCarry a (~~~b) cin) (a.msb != b.msb && res.msb != a.msb) (sum.getLsbD 8))

/-- The condition code `Compare(first, second)` writes: unsigned order when COM = 1, two's complement order when COM = 0 (43_compare.md R200). -/
def compareCC (p first second : Byte) : BitVec 2 :=
  if first = second then 0b00
  else if comOf p then (if second.ult first then 0b01 else 0b10)
  else (if second.slt first then 0b01 else 0b10)

/-- A rotate's PSL: CC always, and C, IDC (bit 5 of the result) and OVF (the sign changed) when WC = 1 (44_rotate.md R210; 90_conflicts.md C15). -/
def rotatePsl (p v res : Byte) (cout : Bool) : Byte :=
  if wcOf p then withArith p (signCC res) (res.getLsbD 5) (res.msb != v.msb) cout
  else withCC p (signCC res)

/-- RRL: the rotated byte and the new PSL (44_rotate.md R211). -/
def rotateLeft8 (p v : Byte) : Byte × Byte :=
  let cin := if wcOf p then cOf p else v.getLsbD 7
  let res : Byte := (v <<< 1) ||| (BitVec.ofBool cin).setWidth 8
  (res, rotatePsl p v res (v.getLsbD 7))

/-- RRR: the rotated byte and the new PSL (44_rotate.md R212). -/
def rotateRight8 (p v : Byte) : Byte × Byte :=
  let cin := if wcOf p then cOf p else v.getLsbD 0
  let res : Byte := (v >>> 1) ||| ((BitVec.ofBool cin).setWidth 8 <<< 7)
  (res, rotatePsl p v res (v.getLsbD 0))

/-- The condition code of TMI, TPSU and TPSL: 00 when all selected bits are 1, else 10 (49_misc.md R322; 45_program_status.md R229, R230; 92_eei_decisions.md D30). -/
def testCC (x mask : Byte) : BitVec 2 :=
  if x &&& mask = mask then 0b00 else 0b10

/-- DAR's byte: ten is added to the high digit when C = 0 and to the low digit when IDC = 0, each digit modulo 16 on its own (49_misc.md R323; 92_eei_decisions.md D24). -/
def decimalAdjust (p v : Byte) : Byte :=
  let hi : BitVec 4 := v.extractLsb' 4 4
  let lo : BitVec 4 := v.extractLsb' 0 4
  (if cOf p then hi else hi + 10) ++ (if idcOf p then lo else lo + 10)

/-- `cond_true(v)` (46_branch.md R240). -/
def condTrue (p : Byte) (v : CondVal) : Bool := v == 3 || ccOf p == v

/-- `cond_false(v)` (46_branch.md R240). -/
def condFalse (p : Byte) (v : CondVal) : Bool := ccOf p != v

end Sys2Proof.Machine
end

