-- ==== Sys2Proof/Machine/Ops.lean ====
section
/-! DEFINITION. The named operations every meaning is built from: addresses, registers, the two status bytes, memory and the bus, the return address stack, interrupt entry and the returns. -/

namespace Sys2Proof.Machine

/-! Addresses -/

/-- The in-page part of an address (20_memory.md R61). -/
def offsetOf (a : Addr) : Offset := a.extractLsb' 0 13

/-- The page bits of an address (20_memory.md R61). -/
def pageOf (a : Addr) : BitVec 2 := a.extractLsb' 13 2

/-- `inpage(p, n)`: the page of p with the in-page address n (20_memory.md R65). -/
def inPage (p : Addr) (n : Offset) : Addr := pageOf p ++ n

/-- The next address of the same page, wrapping from 8,191 to 0 (10_state.md R25; 92_eei_decisions.md D4, D5). -/
def nextInPage (a : Addr) : Addr := inPage a (offsetOf a + 1)

/-! Registers -/

/-- The bank PSL.RS selects (10_state.md R22). -/
def currentBank (s : State) : Bank := if rsOf s.psl then s.bank1 else s.bank0

/-- Replace the bank PSL.RS selects; the other keeps its contents (10_state.md R22). -/
def setBank (b : Bank) (s : State) : State :=
  if rsOf s.psl then { s with bank1 := b } else { s with bank0 := b }

/-- `R[n]` (10_state.md R22). -/
def readReg (r : Reg) (s : State) : Byte :=
  match r with
  | .r0 => s.r0
  | .r1 => (currentBank s).r1
  | .r2 => (currentBank s).r2
  | .r3 => (currentBank s).r3

/-- `R[n] <- v` (10_state.md R22). -/
def writeReg (r : Reg) (v : Byte) (s : State) : State :=
  match r with
  | .r0 => { s with r0 := v }
  | .r1 => setBank { currentBank s with r1 := v } s
  | .r2 => setBank { currentBank s with r2 := v } s
  | .r3 => setBank { currentBank s with r3 := v } s

/-- Write a register and set CC from the byte written (10_state.md R34, R35). -/
def loadReg (r : Reg) (v : Byte) (s : State) : State :=
  { writeReg r v s with psl := setCC s.psl v }

/-- Set CC alone. -/
def putCC (cc : BitVec 2) (s : State) : State := { s with psl := withCC s.psl cc }

/-- A register operation whose function gives the result and the whole new PSL (41_arithmetic.md R160, R161; 44_rotate.md R211, R212). -/
def putResult (r : Reg) (p : Byte × Byte) (s : State) : State :=
  { writeReg r p.1 s with psl := p.2 }

/-! The Program Status Upper -/

/-- `PSU_read()`: S:F:II:0:0:SP with S the Sense pin now (45_program_status.md R220; 10_state.md R27, R30). -/
def psuRead (s : State) : Byte :=
  BitVec.ofBool s.env.now.sense ++ (BitVec.ofBool s.flag ++ (BitVec.ofBool s.ii ++ (0#2 ++ s.sp)))

/-- `PSU_write(x)`: F, II and SP are stored, bits 7, 4 and 3 ignored (45_program_status.md R220). -/
def psuWrite (x : Byte) (s : State) : State :=
  { s with flag := x.getLsbD 6, ii := x.getLsbD 5, sp := x.extractLsb' 0 3 }

/-! Memory as data -/

/-- The byte stored at an address; none where nothing has been stored. -/
def Memory.find (m : Memory) (a : Nat) : Option Byte :=
  match m with
  | [] => none
  | (k, v) :: t => if k = a then some v else Memory.find t a

/-- Store a byte, keeping the addresses strictly rising. -/
def Memory.put (m : Memory) (a : Nat) (v : Byte) : Memory :=
  match m with
  | [] => [(a, v)]
  | (k, w) :: t =>
    if a < k then (a, v) :: (k, w) :: t
    else if k = a then (k, v) :: t
    else (k, w) :: Memory.put t a v

/-- Addresses strictly rising, none below `lo`, all within the 32,768 of 20_memory.md R60. -/
def Memory.risingFrom (lo : Nat) (m : Memory) : Bool :=
  match m with
  | [] => true
  | (k, _) :: t => decide (lo ≤ k) && (decide (k < 32768) && Memory.risingFrom (k + 1) t)

/-- The canonical form of a memory. -/
def Memory.wf (m : Memory) : Bool := Memory.risingFrom 0 m

/-- What a byte of memory holds: the byte stored there, and at an unlisted address the free value of log entry 3 (20_memory.md R62; 93_implementation_defined.md item 5). -/
def storedByte (m : Memory) (a : Addr) : Byte := (Memory.find m a.toNat).getD (Config.ramInit a)

/-- What memory holds at an address, read without a bus operation. -/
def State.peek (s : State) (a : Addr) : Byte := storedByte s.mem a

/-- What stands behind an address: the first region that holds it, else RAM (`MEM_MAP`, log entry 4). -/
def Env.kindAt (e : Env) (a : Addr) : MemKind :=
  match e.platform.memMap.find? (fun r => decide (r.first ≤ a.toNat) && decide (a.toNat ≤ r.last)) with
  | some r => r.kind
  | none => .ram

/-! External operations -/

/-- A byte nothing drives: the next free value (92_eei_decisions.md D21). -/
def drawByte (s : State) : Byte × State :=
  (Config.freeByte s.env.draws, { s with env := { s.env with draws := s.env.draws + 1 } })

/-- The bytes the device at a place will still answer; none where there is no device. -/
def answersOf (p : Place) (ds : List Device) : List Byte :=
  match ds with
  | [] => []
  | d :: t => if d.place = p then d.answers else answersOf p t

/-- The devices after the one at a place has given one answer; every other device keeps its own. -/
def dropAnswer (p : Place) (ds : List Device) : List Device :=
  match ds with
  | [] => []
  | d :: t => if d.place = p then { d with answers := d.answers.tail } :: t else d :: dropAnswer p t

/-- The byte read at a place: the next answer of the device there, and a free value where no device drives the bus or the device has no answer left (48_io.md R300 (e), (h); 92_eei_decisions.md D11, D21). -/
def nextAnswer (p : Place) (s : State) : Byte × State :=
  match answersOf p s.env.devices with
  | b :: _ => (b, { s with env := { s.env with devices := dropAnswer p s.env.devices } })
  | [] => drawByte s

/-- Record an operation that reached a device or a port (48_io.md R300 (e)). -/
def record (op : BusOp) (s : State) : State :=
  { s with env := { s.env with ops := op :: s.env.ops } }

/-- One read operation at a place: take the byte and record the operation. -/
def deviceRead (p : Place) (op : Byte → BusOp) (s : State) : Byte × State :=
  ((nextAnswer p s).1, record (op (nextAnswer p s).1) (nextAnswer p s).2)

/-- `MemRead(addr, 1)` (20_memory.md R62, R84). -/
def memRead (a : Addr) (s : State) : Byte × State :=
  match s.env.kindAt a with
  | .ram => (s.peek a, s)
  | .rom => (s.peek a, s)
  | .device => deviceRead (.memory a) (BusOp.memRead a) s
  | .nothing => drawByte s

/-- `MemWrite(addr, 1, v)`: RAM takes the byte, a device is sent it, ROM and nothing ignore it (20_memory.md R63, R84). -/
def memWrite (a : Addr) (v : Byte) (s : State) : State :=
  match s.env.kindAt a with
  | .ram => { s with mem := Memory.put s.mem a.toNat v }
  | .rom => s
  | .device => record (BusOp.memWrite a v) s
  | .nothing => s

/-- `IoRead(Data)` and `IoRead(Control)` (20_memory.md R82). -/
def portRead (p : Port) (s : State) : Byte × State := deviceRead (.port p) (BusOp.portRead p) s

/-- `IoWrite(Data, v)` and `IoWrite(Control, v)` (20_memory.md R82). -/
def portWrite (p : Port) (v : Byte) (s : State) : State := record (BusOp.portWrite p v) s

/-- `IoRead(Extended, dev)` (20_memory.md R83). -/
def extRead (dev : Byte) (s : State) : Byte × State := deviceRead (.extended dev) (BusOp.extRead dev) s

/-- `IoWrite(Extended, dev, v)` (20_memory.md R83). -/
def extWrite (dev v : Byte) (s : State) : State := record (BusOp.extWrite dev v) s

/-- The interrupt acknowledge read (60_exceptions.md R346; 10_state.md R48). -/
def acknowledge (s : State) : Byte × State := deviceRead .vector BusOp.intAck s

/-- One external operation, its effect outside the processor: a read takes the byte that is there now, a write carries the byte of the operation (20_memory.md R80). -/
def perform (op : BusOp) (s : State) : State :=
  match op with
  | .memRead a _ => (memRead a s).2
  | .memWrite a v => memWrite a v s
  | .portRead p _ => (portRead p s).2
  | .portWrite p v => portWrite p v s
  | .extRead d _ => (extRead d s).2
  | .extWrite d v => extWrite d v s
  | .intAck _ => (acknowledge s).2

/-- The place an operation reads; none for a write. -/
def readPlace (op : BusOp) : Option Place :=
  match op with
  | .memRead a _ => some (.memory a)
  | .memWrite _ _ => none
  | .portRead p _ => some (.port p)
  | .portWrite _ _ => none
  | .extRead d _ => some (.extended d)
  | .extWrite _ _ => none
  | .intAck _ => some .vector

/-- The devices after the reads among these operations. -/
def dropAnswers (ops : List BusOp) (ds : List Device) : List Device :=
  match ops with
  | [] => ds
  | op :: t =>
    match readPlace op with
    | some p => dropAnswers t (dropAnswer p ds)
    | none => dropAnswers t ds

/-- External operations one after another (20_memory.md R70). -/
def performAll (ops : List BusOp) (s : State) : State :=
  match ops with
  | [] => s
  | op :: t => performAll t (perform op s)

/-- Fetch one instruction byte and advance IAR in its page (20_memory.md R66). -/
def fetchByte (s : State) : Byte × State :=
  ((memRead s.iar s).1, { (memRead s.iar s).2 with iar := nextInPage s.iar })

/-! Addresses that memory or page zero supplies -/

/-- `Indirect(p)`: the pointer's high byte, then its low byte at the next address of the page; bit 7 of the high byte is ignored (20_memory.md R87). -/
def indirect (p : Addr) (s : State) : Addr × State :=
  let hi := memRead p s
  let lo := memRead (nextInPage p) hi.2
  (hi.1.setWidth 7 ++ lo.1, lo.2)

/-- An address, taken through a pointer when the indirect bit says so (20_memory.md R78, R79, R85, R86). -/
def through (ind : Bool) (a : Addr) (s : State) : Addr × State :=
  if ind then indirect a s else (a, s)

/-- `ZeroRelEA(b)`: the displacement counted from page 0, byte 0, modulo 8,192 (20_memory.md R79). -/
def zeroRelEA (a : RelArg) (s : State) : Addr × State :=
  through a.ind (0#2 ++ a.disp.signExtend 13) s

/-! Branching -/

/-- Load IAR with the address of an effective address function, `IAR <- ea_fn()` (46_branch.md R241). -/
def goTo (ea : Addr × State) : State := { ea.2 with iar := ea.1 }

/-- A branch or call that is not taken: nothing, or the read of its pointer where the platform parameter says so (46_branch.md R241 (b); 92_eei_decisions.md D18; 93_implementation_defined.md item 22; log entry 16). -/
def notTaken (ea : State → Addr × State) (s : State) : State :=
  if s.env.platform.untakenPointer then (ea s).2 else s

/-- `branch_if(taken, ea_fn)` (46_branch.md R241). -/
def branchIf (taken : Bool) (ea : State → Addr × State) (s : State) : State :=
  if taken then goTo (ea s) else notTaken ea s

/-- Entry i of the return address stack (10_state.md R32). -/
def rasGet (v : Vector Addr 8) (i : BitVec 3) : Addr := v[i.toNat]'(i.isLt)

/-- The return address stack with entry i replaced (10_state.md R32). -/
def rasSet (v : Vector Addr 8) (i : BitVec 3) (a : Addr) : Vector Addr 8 := v.set i.toNat a i.isLt

/-- `push_and_branch(ea)`: SP is incremented, then RAS[SP] receives IAR, then IAR the address (47_subroutine.md R270). -/
def pushAndBranch (ea : Addr × State) : State :=
  { ea.2 with
    sp := ea.2.sp + 1
    ras := rasSet ea.2.ras (ea.2.sp + 1) ea.2.iar
    iar := ea.1 }

/-- A subroutine branch that happens only when taken (47_subroutine.md R273 to R278). -/
def callIf (taken : Bool) (ea : State → Addr × State) (s : State) : State :=
  if taken then pushAndBranch (ea s) else notTaken ea s

/-- `pop_and_return()`: IAR receives RAS[SP], then SP is decremented; the entry stays (47_subroutine.md R271). -/
def popAndReturn (s : State) : State :=
  { s with iar := rasGet s.ras s.sp, sp := s.sp - 1 }

/-! The interrupt -/

/-- `interrupt_accepted()` (60_exceptions.md R345). -/
def interruptAccepted (s : State) : Bool := !s.ii && s.env.now.intreq

/-- `do_interrupt_entry()`: the run state, II, the first byte of ZBSR put into the instruction register, the acknowledge read of the vector byte, and the forced ZBSR, which saves IAR on the return address stack and goes to the zero-relative address (60_exceptions.md R346, R347). The request is acknowledged, so the interrupt-waiting latch falls (92_eei_decisions.md D13). -/
def interruptEntry (s : State) : State :=
  let vec := acknowledge { s with runState := .run, ii := true, intWaiting := false, ir := 0xBB }
  pushAndBranch (zeroRelEA (RelArg.ofByte vec.1) vec.2)

/-- RETE when taken: return, then clear II (47_subroutine.md R281; 60_exceptions.md R350). -/
def returnAndEnable (s : State) : State := { popAndReturn s with ii := false }

end Sys2Proof.Machine
end

