-- ==== Sys2Proof/Machine/Operands.lean ====
section
/-! DEFINITION. The effective address functions of 20_memory.md section 7 and the memory operands they give. They are evaluated with IAR at the byte after the instruction. -/

namespace Sys2Proof.Machine

/-- `RelEA()` (20_memory.md R78). -/
def relEA (a : RelArg) (s : State) : Addr × State :=
  through a.ind (inPage s.iar (offsetOf s.iar + a.disp.signExtend 13)) s

/-- `BranchAbsEA()` (20_memory.md R86). -/
def branchAbsEA (a : BrArg) (s : State) : Addr × State := through a.ind a.addr s

/-- An index added to an address, in its page: an unsigned 8-bit integer modulo 8,192 (20_memory.md R85 (a); 92_eei_decisions.md D6). -/
def indexBy (a : Addr) (x : Byte) : Addr := inPage a (offsetOf a + x.setWidth 13)

/-- `IndexedBranchEA()`, indexed by R3 of the current bank (20_memory.md R88). -/
def indexedBranchEA (a : BrArg) (s : State) : Addr × State :=
  let ea := branchAbsEA a s
  (indexBy ea.1 (readReg .r3 ea.2), ea.2)

/-- The index register after the index control acted on it, before the address is computed (20_memory.md R85). -/
def stepIndex (ic : IndexCtl) (x : Reg) (s : State) : State :=
  match ic with
  | .inc => writeReg x (readReg x s + 1) s
  | .dec => writeReg x (readReg x s - 1) s
  | .plain => s
  | .none => s

/-- The operand register of format A: the register field, and R0 when indexed (20_memory.md R85; 90_conflicts.md C6). -/
def absReg (x : Reg) (a : AbsArg) : Reg :=
  match a.ic with
  | .none => x
  | .inc => .r0
  | .dec => .r0
  | .plain => .r0

/-- The effective address of `AbsEA()`: the pointer read, the index register's change, the index added (20_memory.md R85). -/
def absEA (x : Reg) (a : AbsArg) (s : State) : Addr × State :=
  let ea := through a.ind (inPage s.iar a.addr) s
  let t := stepIndex a.ic x ea.2
  match a.ic with
  | .none => (ea.1, t)
  | .inc => (indexBy ea.1 (readReg x t), t)
  | .dec => (indexBy ea.1 (readReg x t), t)
  | .plain => (indexBy ea.1 (readReg x t), t)

/-- The memory byte at an effective address. -/
def operandAt (ea : Addr × State) : Byte × State := memRead ea.1 ea.2

/-- The memory operand of a relative instruction (20_memory.md R78). -/
def relOperand (a : RelArg) (s : State) : Byte × State := operandAt (relEA a s)

/-- The memory operand of an absolute instruction (20_memory.md R85). -/
def absOperand (x : Reg) (a : AbsArg) (s : State) : Byte × State := operandAt (absEA x a s)

/-- A register stored at an effective address (40_load_store.md R146, R147). -/
def storeAt (r : Reg) (ea : Addr × State) : State := memWrite ea.1 (readReg r ea.2) ea.2

/-- A byte loaded into a register, with CC set from it (40_load_store.md R140). -/
def loadFrom (r : Reg) (m : Byte × State) : State := loadReg r m.1 m.2

/-- Add a byte to a register (41_arithmetic.md R160). -/
def addTo (r : Reg) (m : Byte × State) : State :=
  putResult r (add8 m.2.psl (readReg r m.2) m.1) m.2

/-- Subtract a byte from a register (41_arithmetic.md R161). -/
def subFrom (r : Reg) (m : Byte × State) : State :=
  putResult r (sub8 m.2.psl (readReg r m.2) m.1) m.2

/-- AND a byte to a register (42_logical.md R180). -/
def andTo (r : Reg) (m : Byte × State) : State := loadReg r (readReg r m.2 &&& m.1) m.2

/-- Inclusive OR a byte to a register (42_logical.md R180). -/
def iorTo (r : Reg) (m : Byte × State) : State := loadReg r (readReg r m.2 ||| m.1) m.2

/-- Exclusive OR a byte to a register (42_logical.md R180). -/
def eorTo (r : Reg) (m : Byte × State) : State := loadReg r (readReg r m.2 ^^^ m.1) m.2

/-- Compare a register, the first operand, with a byte (43_compare.md R200). -/
def compareWith (r : Reg) (m : Byte × State) : State :=
  putCC (compareCC m.2.psl (readReg r m.2) m.1) m.2

/-- The count of BIRR, BIRA (+1) and BDRR, BDRA (-1): the register changes, no PSW field does (46_branch.md R247, R249). -/
def countReg (r : Reg) (d : Byte) (s : State) : State := writeReg r (readReg r s + d) s

end Sys2Proof.Machine
end

