-- ==== Sys2Proof/Machine/Arithmetic.lean ====
section
/-! DEFINITION. Add and subtract (41_arithmetic.md R162 to R169). -/

namespace Sys2Proof.Machine

/-- ADDZ r (41_arithmetic.md R162). -/
def execAddz (r : Reg) (s : State) : Result := .next (addTo .r0 (readReg r s, s))

/-- ADDI,r v (41_arithmetic.md R163). -/
def execAddi (r : Reg) (v : Byte) (s : State) : Result := .next (addTo r (v, s))

/-- ADDR,r (*)a (41_arithmetic.md R164). -/
def execAddr (r : Reg) (a : RelArg) (s : State) : Result := .next (addTo r (relOperand a s))

/-- ADDA,r (*)a(,X) (41_arithmetic.md R165). -/
def execAdda (r : Reg) (a : AbsArg) (s : State) : Result :=
  .next (addTo (absReg r a) (absOperand r a s))

/-- SUBZ r (41_arithmetic.md R166). -/
def execSubz (r : Reg) (s : State) : Result := .next (subFrom .r0 (readReg r s, s))

/-- SUBI,r v (41_arithmetic.md R167). -/
def execSubi (r : Reg) (v : Byte) (s : State) : Result := .next (subFrom r (v, s))

/-- SUBR,r (*)a (41_arithmetic.md R168). -/
def execSubr (r : Reg) (a : RelArg) (s : State) : Result := .next (subFrom r (relOperand a s))

/-- SUBA,r (*)a(,X) (41_arithmetic.md R169). -/
def execSuba (r : Reg) (a : AbsArg) (s : State) : Result :=
  .next (subFrom (absReg r a) (absOperand r a s))

end Sys2Proof.Machine
end

