-- ==== Sys2Proof/Machine/Branch.lean ====
section
/-! DEFINITION. Branches (46_branch.md R240 to R253). -/

namespace Sys2Proof.Machine

/-- ZBRR (*)a (46_branch.md R242). -/
def execZbrr (a : RelArg) (s : State) : Result := .next (goTo (zeroRelEA a s))

/-- BCTR,v (*)a (46_branch.md R243). -/
def execBctr (v : CondVal) (a : RelArg) (s : State) : Result :=
  .next (branchIf (condTrue s.psl v) (relEA a) s)

/-- BCTA,v (*)a (46_branch.md R244). -/
def execBcta (v : CondVal) (a : BrArg) (s : State) : Result :=
  .next (branchIf (condTrue s.psl v) (branchAbsEA a) s)

/-- BCFR,v (*)a (46_branch.md R245). -/
def execBcfr (v : CondVal) (a : RelArg) (s : State) : Result :=
  .next (branchIf (condFalse s.psl v) (relEA a) s)

/-- BCFA,v (*)a (46_branch.md R246). -/
def execBcfa (v : CondVal) (a : BrArg) (s : State) : Result :=
  .next (branchIf (condFalse s.psl v) (branchAbsEA a) s)

/-- BIRR,r (*)a: the register is incremented whether or not the branch is taken (46_branch.md R247). -/
def execBirr (r : Reg) (a : RelArg) (s : State) : Result :=
  .next (branchIf (readReg r s + 1 != 0) (relEA a) (countReg r 1 s))

/-- BIRA,r (*)a (46_branch.md R248). -/
def execBira (r : Reg) (a : BrArg) (s : State) : Result :=
  .next (branchIf (readReg r s + 1 != 0) (branchAbsEA a) (countReg r 1 s))

/-- BDRR,r (*)a: the register is decremented whether or not the branch is taken (46_branch.md R249). -/
def execBdrr (r : Reg) (a : RelArg) (s : State) : Result :=
  .next (branchIf (readReg r s + 0xFF != 0) (relEA a) (countReg r 0xFF s))

/-- BDRA,r (*)a (46_branch.md R250). -/
def execBdra (r : Reg) (a : BrArg) (s : State) : Result :=
  .next (branchIf (readReg r s + 0xFF != 0) (branchAbsEA a) (countReg r 0xFF s))

/-- BRNR,r (*)a (46_branch.md R251). -/
def execBrnr (r : Reg) (a : RelArg) (s : State) : Result :=
  .next (branchIf (readReg r s != 0) (relEA a) s)

/-- BRNA,r (*)a (46_branch.md R252). -/
def execBrna (r : Reg) (a : BrArg) (s : State) : Result :=
  .next (branchIf (readReg r s != 0) (branchAbsEA a) s)

/-- BXA (*)a,X (46_branch.md R253). -/
def execBxa (a : BrArg) (s : State) : Result := .next (goTo (indexedBranchEA a s))

end Sys2Proof.Machine
end

