-- ==== Sys2Proof/Machine/Compare.lean ====
section
/-! DEFINITION. Compare (43_compare.md R200 to R204). -/

namespace Sys2Proof.Machine

/-- COMZ r (43_compare.md R201). -/
def execComz (r : Reg) (s : State) : Result := .next (compareWith .r0 (readReg r s, s))

/-- COMI,r v (43_compare.md R202). -/
def execComi (r : Reg) (v : Byte) (s : State) : Result := .next (compareWith r (v, s))

/-- COMR,r (*)a (43_compare.md R203). -/
def execComr (r : Reg) (a : RelArg) (s : State) : Result := .next (compareWith r (relOperand a s))

/-- COMA,r (*)a(,X) (43_compare.md R204). -/
def execComa (r : Reg) (a : AbsArg) (s : State) : Result :=
  .next (compareWith (absReg r a) (absOperand r a s))

end Sys2Proof.Machine
end

