-- ==== Sys2Proof/Machine/InputOutput.lean ====
section
/-! DEFINITION. Input and output (48_io.md R300 to R306). -/

namespace Sys2Proof.Machine

/-- REDD,r (48_io.md R301). -/
def execRedd (r : Reg) (s : State) : Result := .next (loadFrom r (portRead .data s))

/-- REDC,r (48_io.md R302). -/
def execRedc (r : Reg) (s : State) : Result := .next (loadFrom r (portRead .control s))

/-- REDE,r v (48_io.md R303). -/
def execRede (r : Reg) (v : Byte) (s : State) : Result := .next (loadFrom r (extRead v s))

/-- WRTD,r (48_io.md R304). -/
def execWrtd (r : Reg) (s : State) : Result := .next (portWrite .data (readReg r s) s)

/-- WRTC,r (48_io.md R305). -/
def execWrtc (r : Reg) (s : State) : Result := .next (portWrite .control (readReg r s) s)

/-- WRTE,r v (48_io.md R306). -/
def execWrte (r : Reg) (v : Byte) (s : State) : Result := .next (extWrite v (readReg r s) s)

end Sys2Proof.Machine
end

