-- ==== Sys2Proof/Machine/LoadStore.lean ====
section
/-! DEFINITION. Load and store (40_load_store.md R140 to R147). -/

namespace Sys2Proof.Machine

/-- LODZ r (40_load_store.md R141). -/
def execLodz (r : Reg) (s : State) : Result := .next (loadFrom .r0 (readReg r s, s))

/-- LODI,r v (40_load_store.md R142). -/
def execLodi (r : Reg) (v : Byte) (s : State) : Result := .next (loadFrom r (v, s))

/-- LODR,r (*)a (40_load_store.md R143). -/
def execLodr (r : Reg) (a : RelArg) (s : State) : Result := .next (loadFrom r (relOperand a s))

/-- LODA,r (*)a(,X) (40_load_store.md R144). -/
def execLoda (r : Reg) (a : AbsArg) (s : State) : Result :=
  .next (loadFrom (absReg r a) (absOperand r a s))

/-- STRZ r: the one store that sets CC (40_load_store.md R145; 90_conflicts.md C9). -/
def execStrz (r : Reg) (s : State) : Result := .next (loadFrom r (readReg .r0 s, s))

/-- STRR,r (*)a (40_load_store.md R146). -/
def execStrr (r : Reg) (a : RelArg) (s : State) : Result := .next (storeAt r (relEA a s))

/-- STRA,r (*)a(,X) (40_load_store.md R147). -/
def execStra (r : Reg) (a : AbsArg) (s : State) : Result :=
  .next (storeAt (absReg r a) (absEA r a s))

end Sys2Proof.Machine
end

