-- ==== Sys2Proof/Machine/Logical.lean ====
section
/-! DEFINITION. AND, inclusive OR, exclusive OR (42_logical.md R180 to R192). -/

namespace Sys2Proof.Machine

/-- ANDZ r (42_logical.md R181). -/
def execAndz (r : Reg) (s : State) : Result := .next (andTo .r0 (readReg r s, s))

/-- ANDI,r v (42_logical.md R182). -/
def execAndi (r : Reg) (v : Byte) (s : State) : Result := .next (andTo r (v, s))

/-- ANDR,r (*)a (42_logical.md R183). -/
def execAndr (r : Reg) (a : RelArg) (s : State) : Result := .next (andTo r (relOperand a s))

/-- ANDA,r (*)a(,X) (42_logical.md R184). -/
def execAnda (r : Reg) (a : AbsArg) (s : State) : Result :=
  .next (andTo (absReg r a) (absOperand r a s))

/-- IORZ r (42_logical.md R185). -/
def execIorz (r : Reg) (s : State) : Result := .next (iorTo .r0 (readReg r s, s))

/-- IORI,r v (42_logical.md R186). -/
def execIori (r : Reg) (v : Byte) (s : State) : Result := .next (iorTo r (v, s))

/-- IORR,r (*)a (42_logical.md R187). -/
def execIorr (r : Reg) (a : RelArg) (s : State) : Result := .next (iorTo r (relOperand a s))

/-- IORA,r (*)a(,X) (42_logical.md R188). -/
def execIora (r : Reg) (a : AbsArg) (s : State) : Result :=
  .next (iorTo (absReg r a) (absOperand r a s))

/-- EORZ r (42_logical.md R189). -/
def execEorz (r : Reg) (s : State) : Result := .next (eorTo .r0 (readReg r s, s))

/-- EORI,r v (42_logical.md R190). -/
def execEori (r : Reg) (v : Byte) (s : State) : Result := .next (eorTo r (v, s))

/-- EORR,r (*)a (42_logical.md R191). -/
def execEorr (r : Reg) (a : RelArg) (s : State) : Result := .next (eorTo r (relOperand a s))

/-- EORA,r (*)a(,X) (42_logical.md R192). -/
def execEora (r : Reg) (a : AbsArg) (s : State) : Result :=
  .next (eorTo (absReg r a) (absOperand r a s))

end Sys2Proof.Machine
end

