-- ==== Sys2Proof/Machine/Misc.lean ====
section
/-! DEFINITION. NOP, TMI, DAR, HALT (49_misc.md R320 to R324). -/

namespace Sys2Proof.Machine

/-- NOP (49_misc.md R321). -/
def execNop (s : State) : Result := .next s

/-- TMI,r v (49_misc.md R322). -/
def execTmi (r : Reg) (v : Byte) (s : State) : Result :=
  .next (putCC (testCC (readReg r s) v) s)

/-- The condition code no source gives: the next free value (92_eei_decisions.md D8). -/
def drawCC (s : State) : State :=
  { s with
    psl := withCC s.psl (Config.freeCC s.env.draws)
    env := { s.env with draws := s.env.draws + 1 } }

/-- DAR,r; CC is left a free value (49_misc.md R323). -/
def execDar (r : Reg) (s : State) : Result :=
  .next (drawCC (writeReg r (decimalAdjust s.psl (readReg r s)) s))

/-- HALT: the WAIT state, with IAR at the byte after the HALT (49_misc.md R324). -/
def execHalt (s : State) : Result := .next { s with runState := .waitHalt }

end Sys2Proof.Machine
end

