-- ==== Sys2Proof/Machine/Rotate.lean ====
section
/-! DEFINITION. Rotates (44_rotate.md R210 to R212). -/

namespace Sys2Proof.Machine

/-- RRL,r (44_rotate.md R211). -/
def execRrl (r : Reg) (s : State) : Result :=
  .next (putResult r (rotateLeft8 s.psl (readReg r s)) s)

/-- RRR,r (44_rotate.md R212). -/
def execRrr (r : Reg) (s : State) : Result :=
  .next (putResult r (rotateRight8 s.psl (readReg r s)) s)

end Sys2Proof.Machine
end

