-- ==== Sys2Proof/Machine/Status.lean ====
section
/-! DEFINITION. The program status instructions (45_program_status.md R220 to R230). -/

namespace Sys2Proof.Machine

/-- LPSU (45_program_status.md R221). -/
def execLpsu (s : State) : Result := .next (psuWrite s.r0 s)

/-- LPSL (45_program_status.md R222). -/
def execLpsl (s : State) : Result := .next { s with psl := s.r0 }

/-- SPSU (45_program_status.md R223). -/
def execSpsu (s : State) : Result := .next (loadReg .r0 (psuRead s) s)

/-- SPSL: R0 receives the PSL as it was, then CC is set from it (45_program_status.md R224). -/
def execSpsl (s : State) : Result := .next (loadReg .r0 s.psl s)

/-- PPSU v (45_program_status.md R225). -/
def execPpsu (v : Byte) (s : State) : Result := .next (psuWrite (psuRead s ||| v) s)

/-- PPSL v (45_program_status.md R226). -/
def execPpsl (v : Byte) (s : State) : Result := .next { s with psl := s.psl ||| v }

/-- CPSU v (45_program_status.md R227). -/
def execCpsu (v : Byte) (s : State) : Result := .next (psuWrite (psuRead s &&& ~~~v) s)

/-- CPSL v (45_program_status.md R228). -/
def execCpsl (v : Byte) (s : State) : Result := .next { s with psl := s.psl &&& ~~~v }

/-- TPSU v (45_program_status.md R229). -/
def execTpsu (v : Byte) (s : State) : Result := .next (putCC (testCC (psuRead s) v) s)

/-- TPSL v (45_program_status.md R230). -/
def execTpsl (v : Byte) (s : State) : Result := .next (putCC (testCC s.psl v) s)

end Sys2Proof.Machine
end

