-- ==== Sys2Proof/Machine/Subroutine.lean ====
section
/-! DEFINITION. Subroutine branches and returns (47_subroutine.md R270 to R283). -/

namespace Sys2Proof.Machine

/-- ZBSR (*)a (47_subroutine.md R272). -/
def execZbsr (a : RelArg) (s : State) : Result := .next (pushAndBranch (zeroRelEA a s))

/-- BSTR,v (*)a (47_subroutine.md R273). -/
def execBstr (v : CondVal) (a : RelArg) (s : State) : Result :=
  .next (callIf (condTrue s.psl v) (relEA a) s)

/-- BSTA,v (*)a (47_subroutine.md R274). -/
def execBsta (v : CondVal) (a : BrArg) (s : State) : Result :=
  .next (callIf (condTrue s.psl v) (branchAbsEA a) s)

/-- BSFR,v (*)a (47_subroutine.md R275). -/
def execBsfr (v : CondVal) (a : RelArg) (s : State) : Result :=
  .next (callIf (condFalse s.psl v) (relEA a) s)

/-- BSFA,v (*)a (47_subroutine.md R276). -/
def execBsfa (v : CondVal) (a : BrArg) (s : State) : Result :=
  .next (callIf (condFalse s.psl v) (branchAbsEA a) s)

/-- BSNR,r (*)a (47_subroutine.md R277). -/
def execBsnr (r : Reg) (a : RelArg) (s : State) : Result :=
  .next (callIf (readReg r s != 0) (relEA a) s)

/-- BSNA,r (*)a (47_subroutine.md R278). -/
def execBsna (r : Reg) (a : BrArg) (s : State) : Result :=
  .next (callIf (readReg r s != 0) (branchAbsEA a) s)

/-- BSXA (*)a,X (47_subroutine.md R279). -/
def execBsxa (a : BrArg) (s : State) : Result := .next (pushAndBranch (indexedBranchEA a s))

/-- RETC,v (47_subroutine.md R280). -/
def execRetc (v : CondVal) (s : State) : Result :=
  .next (if condTrue s.psl v then popAndReturn s else s)

/-- RETE,v (47_subroutine.md R281). -/
def execRete (v : CondVal) (s : State) : Result :=
  .next (if condTrue s.psl v then returnAndEnable s else s)

end Sys2Proof.Machine
end

