-- ==== Sys2Proof/Machine/Dispatch.lean ====
section
/-! DEFINITION. One arm per instruction; each is one direct call of its meaning. -/

namespace Sys2Proof.Machine

/-- The effect of an instruction whose bytes have been fetched, with IAR at the byte after it (30_encoding.md R100). -/
def exec (i : Instr) (s : State) : Host.Outcome State Fault Refusal :=
  match i with
  | .lodz r => Sys2Proof.Machine.execLodz r s
  | .lodi r v => Sys2Proof.Machine.execLodi r v s
  | .lodr r a => Sys2Proof.Machine.execLodr r a s
  | .loda r a => Sys2Proof.Machine.execLoda r a s
  | .strz r => Sys2Proof.Machine.execStrz r s
  | .strr r a => Sys2Proof.Machine.execStrr r a s
  | .stra r a => Sys2Proof.Machine.execStra r a s
  | .addz r => Sys2Proof.Machine.execAddz r s
  | .addi r v => Sys2Proof.Machine.execAddi r v s
  | .addr r a => Sys2Proof.Machine.execAddr r a s
  | .adda r a => Sys2Proof.Machine.execAdda r a s
  | .subz r => Sys2Proof.Machine.execSubz r s
  | .subi r v => Sys2Proof.Machine.execSubi r v s
  | .subr r a => Sys2Proof.Machine.execSubr r a s
  | .suba r a => Sys2Proof.Machine.execSuba r a s
  | .andz r => Sys2Proof.Machine.execAndz r s
  | .andi r v => Sys2Proof.Machine.execAndi r v s
  | .andr r a => Sys2Proof.Machine.execAndr r a s
  | .anda r a => Sys2Proof.Machine.execAnda r a s
  | .iorz r => Sys2Proof.Machine.execIorz r s
  | .iori r v => Sys2Proof.Machine.execIori r v s
  | .iorr r a => Sys2Proof.Machine.execIorr r a s
  | .iora r a => Sys2Proof.Machine.execIora r a s
  | .eorz r => Sys2Proof.Machine.execEorz r s
  | .eori r v => Sys2Proof.Machine.execEori r v s
  | .eorr r a => Sys2Proof.Machine.execEorr r a s
  | .eora r a => Sys2Proof.Machine.execEora r a s
  | .comz r => Sys2Proof.Machine.execComz r s
  | .comi r v => Sys2Proof.Machine.execComi r v s
  | .comr r a => Sys2Proof.Machine.execComr r a s
  | .coma r a => Sys2Proof.Machine.execComa r a s
  | .rrl r => Sys2Proof.Machine.execRrl r s
  | .rrr r => Sys2Proof.Machine.execRrr r s
  | .lpsu => Sys2Proof.Machine.execLpsu s
  | .lpsl => Sys2Proof.Machine.execLpsl s
  | .spsu => Sys2Proof.Machine.execSpsu s
  | .spsl => Sys2Proof.Machine.execSpsl s
  | .ppsu v => Sys2Proof.Machine.execPpsu v s
  | .ppsl v => Sys2Proof.Machine.execPpsl v s
  | .cpsu v => Sys2Proof.Machine.execCpsu v s
  | .cpsl v => Sys2Proof.Machine.execCpsl v s
  | .tpsu v => Sys2Proof.Machine.execTpsu v s
  | .tpsl v => Sys2Proof.Machine.execTpsl v s
  | .zbrr a => Sys2Proof.Machine.execZbrr a s
  | .bctr v a => Sys2Proof.Machine.execBctr v a s
  | .bcta v a => Sys2Proof.Machine.execBcta v a s
  | .bcfr v a => Sys2Proof.Machine.execBcfr v a s
  | .bcfa v a => Sys2Proof.Machine.execBcfa v a s
  | .birr r a => Sys2Proof.Machine.execBirr r a s
  | .bira r a => Sys2Proof.Machine.execBira r a s
  | .bdrr r a => Sys2Proof.Machine.execBdrr r a s
  | .bdra r a => Sys2Proof.Machine.execBdra r a s
  | .brnr r a => Sys2Proof.Machine.execBrnr r a s
  | .brna r a => Sys2Proof.Machine.execBrna r a s
  | .bxa a => Sys2Proof.Machine.execBxa a s
  | .zbsr a => Sys2Proof.Machine.execZbsr a s
  | .bstr v a => Sys2Proof.Machine.execBstr v a s
  | .bsta v a => Sys2Proof.Machine.execBsta v a s
  | .bsfr v a => Sys2Proof.Machine.execBsfr v a s
  | .bsfa v a => Sys2Proof.Machine.execBsfa v a s
  | .bsnr r a => Sys2Proof.Machine.execBsnr r a s
  | .bsna r a => Sys2Proof.Machine.execBsna r a s
  | .bsxa a => Sys2Proof.Machine.execBsxa a s
  | .retc v => Sys2Proof.Machine.execRetc v s
  | .rete v => Sys2Proof.Machine.execRete v s
  | .redd r => Sys2Proof.Machine.execRedd r s
  | .redc r => Sys2Proof.Machine.execRedc r s
  | .rede r v => Sys2Proof.Machine.execRede r v s
  | .wrtd r => Sys2Proof.Machine.execWrtd r s
  | .wrtc r => Sys2Proof.Machine.execWrtc r s
  | .wrte r v => Sys2Proof.Machine.execWrte r v s
  | .nop => Sys2Proof.Machine.execNop s
  | .tmi r v => Sys2Proof.Machine.execTmi r v s
  | .dar r => Sys2Proof.Machine.execDar r s
  | .halt => Sys2Proof.Machine.execHalt s

end Sys2Proof.Machine
end

