-- ==== Sys2Proof/Machine/Boundary.lean ====
section
/-! DEFINITION. What happens at an instruction boundary: fetching an instruction and running it, first bytes with no mnemonic, RESET at a boundary and in the middle of a step, the PAUSE wait with its prefetched byte and its DMA writes, and the passage from one step's inputs to the next's. -/

namespace Sys2Proof.Machine

/-! The environment -/

/-- The inputs of the next step: the next of those to come, or the present levels again, a RESET that stays having no new edge. -/
def Env.advance (e : Env) : Env :=
  match e.later with
  | [] => { e with now := { e.now with resetAfter := 0, dma := [] } }
  | i :: t => { e with now := i, later := t }

/-- The step is over: the environment moves on to its next inputs. -/
def endStep (r : Result) : Result :=
  match r with
  | .next s => .next { s with env := s.env.advance }
  | .fault f => .fault f
  | .refused f => .refused f

/-! Items of chip state left open -/

/-- The items RESET gives no value, replaced (10_state.md R49). -/
def setChip (p : PowerUp) (s : State) : State :=
  { s with
    r0 := p.r0
    bank0 := { r1 := p.r1, r2 := p.r2, r3 := p.r3 }
    bank1 := { r1 := p.r1', r2 := p.r2', r3 := p.r3' }
    psl := p.psl
    flag := p.flag
    sp := p.sp
    ras := p.ras }

/-- One free value was drawn. -/
def countDraw (s : State) : State := { s with env := { s.env with draws := s.env.draws + 1 } }

/-! First bytes with no mnemonic -/

/-- The outcome of a first byte that is no instruction, where the run stops (60_exceptions.md R341). -/
def decodeFault (addr : Addr) (b0 : Byte) (e : DecodeError) : Fault :=
  match e with
  | .indeterminate => .indeterminateOpcode addr
  | .unassigned b => .unassignedOpcode addr b
  | .truncated => .unassignedOpcode addr b0

/-- The policy for such a first byte: `OPCODE00_POLICY` or `UNASSIGNED_POLICY` (00_scope.md R10). -/
def opcodePolicy (e : DecodeError) (p : Platform) : OpcodePolicy :=
  match e with
  | .indeterminate => p.opcode00
  | .unassigned _ => p.unassigned
  | .truncated => p.unassigned

/-- "Any state afterwards": a free value for every item of chip state, and for whether byte 0 at the new IAR was fetched ahead, after any external operations (92_eei_decisions.md D1, D2; log entry 23).
DESIGN CHOICE (log entries 11, 23): D1 and D2 leave the early fetch open too, so the model's mark for it is free here, neither kept nor cleared. -/
def anyState (s : State) : State :=
  let f := Config.anyState s.env.draws
  { setChip f.chip (performAll f.ops (countDraw s)) with
    iar := f.iar, ii := f.ii, intWaiting := f.intWaiting, runState := f.runState, ir := f.ir
    fetchedAhead := f.fetchedAhead }

/-- A first byte with no mnemonic, fetched from `addr`: the platform's policy decides (60_exceptions.md R341). -/
def noMnemonic (addr : Addr) (b0 : Byte) (e : DecodeError) (s : State) : Result :=
  match opcodePolicy e s.env.platform with
  | .stop => .fault (decodeFault addr b0 e)
  | .anyState => .next (anyState s)

/-! Fetching and running an instruction -/

/-- Fetch one more byte of an instruction when it has one (30_encoding.md R100). -/
def fetchWhen (has : Bool) (s : State) : Byte × State :=
  if has then fetchByte s else (0, s)

/-- Run the instruction whose byte 0 came from `addr`: its length and mnemonic from byte 0, then its other bytes, then its meaning (30_encoding.md R100). A first byte with no mnemonic takes effect before any other byte is fetched (60_exceptions.md R341). -/
def runDecoded (addr : Addr) (b0 : Byte) (s : State) : Result :=
  match instrLength b0 with
  | .error e => noMnemonic addr b0 e s
  | .ok n =>
    let m1 := fetchWhen (decide (2 ≤ n)) s
    let m2 := fetchWhen (decide (3 ≤ n)) m1.2
    match decodeBytes b0 m1.1 m2.1 with
    | .error e => noMnemonic addr b0 e m2.2
    | .ok i => exec i m2.2

/-- Fetch and run the instruction at IAR (30_encoding.md R100). -/
def runInstr (s : State) : Result :=
  runDecoded s.iar (fetchByte s).1 { (fetchByte s).2 with ir := (fetchByte s).1, fetchedAhead := true }

/-- Fetch byte 0 of the next instruction into the instruction register; IAR stays (70_reset_and_hazards.md R400 (b), (c), (d)). -/
def prefetch (s : State) : State :=
  { (memRead s.iar s).2 with ir := (memRead s.iar s).1 }

/-- The read of byte 0 at IAR that the last cycle of the preceding instruction made, when an interrupt is taken after it: the byte is discarded, but a device at that address was read (60_exceptions.md R358; 70_reset_and_hazards.md R400 (d)). -/
def discardedFetch (s : State) : State := if s.fetchedAhead then prefetch s else s

/-! Entering a PAUSE wait -/

/-- Note at a boundary whether INTREQ is waiting (10_state.md R45; 92_eei_decisions.md D13). -/
def senseRequest (s : State) : State := { s with intWaiting := s.env.now.intreq }

/-- PAUSE at a boundary: the next first byte is fetched and the processor waits; a request seen here is remembered (60_exceptions.md R355, R377). -/
def enterPause (s : State) : State := { prefetch (senseRequest s) with runState := .waitPause }

/-! RESET -/

/-- The items RESET gives no value, each a free value (10_state.md R49; 92_eei_decisions.md D22). -/
def scramble (s : State) : State := countDraw (setChip (Config.powerUp s.env.draws) s)

/-- `reset()` (70_reset_and_hazards.md R380), the items it does not name left open; no instruction has run since. -/
def resetChip (s : State) : State :=
  { scramble s with ii := false, intWaiting := false, iar := 0, runState := .run, fetchedAhead := false }

/-- RESET takes effect: a PAUSE wait whose PAUSE stays is entered again with byte 0 of address 0 fetched (70_reset_and_hazards.md R382); else the processor runs.
DESIGN CHOICE (log entry 35): RESET clears the interrupt-waiting latch, and a request asserted with RESET is seen again where the PAUSE wait is entered again, so that it is entered first on release (60_exceptions.md R353 items 1 and 2; 70_reset_and_hazards.md R383), before the instruction of R382; the spec does not join the two rules.
DESIGN CHOICE (log entry 36): each step in which RESET is asserted is a reset of its own, so a RESET held over several steps of such a wait fetches byte 0 of address 0 once in each; R353 item 1 and R382 do not say when, or how often, the fetch happens while RESET is held. -/
def takeReset (s : State) : State :=
  match s.runState with
  | .waitPause => if s.env.now.pause then enterPause (resetChip s) else resetChip s
  | .run => resetChip s
  | .waitHalt => resetChip s

/-! The PAUSE wait -/

/-- One byte written by a DMA master; it lands where there is RAM (20_memory.md R76). -/
def dmaWrite (w : Addr × Byte) (s : State) : State :=
  match s.env.kindAt w.1 with
  | .ram => { s with mem := Memory.put s.mem w.1.toNat w.2 }
  | .rom => s
  | .device => s
  | .nothing => s

/-- The bytes a DMA master writes during one step of a PAUSE wait, in order (20_memory.md R76). -/
def dmaWrites (ws : List (Addr × Byte)) (s : State) : State :=
  match ws with
  | [] => s
  | w :: t => dmaWrites t (dmaWrite w s)

/-- PAUSE is released: a request seen where the pause began is entered first, else the instruction whose byte 0 is held runs, its other bytes fetched now (60_exceptions.md R355; 70_reset_and_hazards.md R400 (b)). -/
def leavePause (s : State) : Result :=
  if s.intWaiting && !s.ii then .next (interruptEntry s)
  else runDecoded s.iar s.ir
    { s with iar := nextInPage s.iar, runState := .run, intWaiting := s.env.now.intreq, fetchedAhead := true }

/-- A step begun in a PAUSE wait (60_exceptions.md R377). -/
def pauseStep (s : State) : Result :=
  if s.env.now.pause then .next (dmaWrites s.env.now.dma s) else leavePause s

/-! The boundary -/

/-- A step begun in the RUN state: PAUSE first, then the interrupt, then the instruction at IAR (30_encoding.md R100; 60_exceptions.md R345, R353). -/
def runStep (s : State) : Result :=
  if s.env.now.pause then .next (enterPause s)
  else if interruptAccepted s then .next (interruptEntry (discardedFetch s))
  else runInstr (senseRequest s)

/-- A step begun in a HALT wait: only an accepted interrupt (or RESET) ends it (60_exceptions.md R354, R376). -/
def haltStep (s : State) : Result :=
  if interruptAccepted s then .next (interruptEntry s) else .next (senseRequest s)

/-- What a step is but for RESET: the run state decides (00_scope.md R15). -/
def undisturbed (s : State) : Result :=
  match s.runState with
  | .run => runStep s
  | .waitHalt => haltStep s
  | .waitPause => pauseStep s

/-- The operations recorded from s to t, oldest first. -/
def newOps (s t : State) : List BusOp := (t.env.ops.take (t.env.ops.length - s.env.ops.length)).reverse

/-- A step from s to t abandoned after its first n operations that memory or a device can tell: the recorded ones, each with its answer taken, then the store into RAM, which is an instruction's last operation. What it had made of the processor is for RESET to replace; of t only the run state is looked at (70_reset_and_hazards.md R380; log entry 25). -/
def abandonAt (n : Nat) (s t : State) : State :=
  let ops := newOps s t
  if ops.length < n then t
  else { s with
    runState := t.runState
    env := { s.env with
      devices := dropAnswers (ops.take n) s.env.devices
      ops := (ops.take n).reverse ++ s.env.ops
      draws := t.env.draws } }

/-- A step in which RESET is asserted: at its boundary, or in its middle, what was begun being abandoned (70_reset_and_hazards.md R380). -/
def resetStep (s : State) : Result :=
  match s.env.now.resetAfter with
  | 0 => .next (takeReset s)
  | n + 1 =>
    match undisturbed s with
    | .next t => .next (takeReset (abandonAt (n + 1) s t))
    | .fault f => .fault f
    | .refused f => .refused f

/-- One step of the processor, RESET before all else (00_scope.md R15; 60_exceptions.md R353). -/
def boundary (s : State) : Result :=
  if s.env.now.reset then resetStep s else undisturbed s

end Sys2Proof.Machine
end

