-- ==== Sys2Proof/Machine/Step.lean ====
section
/-! DEFINITION. The step of the machine, and the state from which the next step runs a given instruction. -/

namespace Sys2Proof.Machine

/-- One step: what the boundary decides, then the environment's next inputs (30_encoding.md R100; 00_scope.md R15). -/
def step (s : State) : Host.Outcome State Fault Refusal := endStep (boundary s)

/-- One byte of a program placed at an address: the byte stored there, and RAM put there unless memory is there already (log entry 29). -/
def State.withByte (s : State) (a : Addr) (v : Byte) : State :=
  { s with
    mem := Memory.put s.mem a.toNat v
    env := { s.env with platform := { s.env.platform with
      memMap := match s.env.kindAt a with
        | .ram => s.env.platform.memMap
        | .rom => s.env.platform.memMap
        | .device => { first := a.toNat, last := a.toNat, kind := .ram } :: s.env.platform.memMap
        | .nothing => { first := a.toNat, last := a.toNat, kind := .ram } :: s.env.platform.memMap } } }

/-- Bytes placed one after another in a page (20_memory.md R66). -/
def State.withBytes (s : State) (a : Addr) (bs : List Byte) : State :=
  match bs with
  | [] => s
  | b :: t => State.withBytes (s.withByte a b) (nextInPage a) t

/-- The state with an instruction stored where the next step fetches it, in the RUN state with no event waiting (log entry 29). -/
def State.withFetchWord (s : State) (nbits w : Nat) : State :=
  let t := s.withBytes s.iar (tableBytes nbits w)
  { t with
    runState := .run
    env := { t.env with now := { t.env.now with reset := false, pause := false, intreq := false } } }

end Sys2Proof.Machine
end

