-- ==== Sys2Proof/Machine/Signals.lean ====
section
/-! DEFINITION. The output pins: FLAG and RUN/WAIT as functions of the state (10_state.md R47), and the control outputs of each external operation (20_memory.md R80). -/

namespace Sys2Proof.Machine

/-- The FLAG pin shows PSU.F (10_state.md R28, R47). -/
def flagPin (s : State) : Bool := s.flag

/-- The RUN/WAIT pin: high in the RUN state (10_state.md R46, R47). -/
def runPin (s : State) : Bool := decide (s.runState = .run)

/-- The PSU as a program sees it: the Sense pin above the bits held (10_state.md R26). -/
def psuByte (s : State) : Byte := psuRead s

/-- The outputs that accompany an external operation; none where the spec gives no value (20_memory.md R80). -/
structure Signals where
  opreq  : Bool
  memory : Option Bool
  write  : Bool
  adr13  : Option Bool
  adr14  : Option Bool
  adr    : Option Offset
  intack : Bool
  wrp    : Bool
deriving DecidableEq, Repr

/-- The row of a memory operation (20_memory.md R80). -/
def memorySignals (write : Bool) (a : Addr) : Signals :=
  { opreq := true, memory := some true, write := write, adr13 := some (a.getLsbD 13)
    adr14 := some (a.getLsbD 14), adr := some (offsetOf a), intack := false, wrp := write }

/-- The row of a one-byte I/O operation; ADR13 is E/NE and ADR14 is D/C (20_memory.md R80, R82). -/
def portSignals (write : Bool) (p : Port) : Signals :=
  { opreq := true, memory := some false, write := write, adr13 := some false
    adr14 := some (decide (p = .data)), adr := none, intack := false, wrp := write }

/-- The row of a two-byte I/O operation; of the address only ADR7 to ADR0 are given, by `extendedAddress` (20_memory.md R80, R83). -/
def extendedSignals (write : Bool) : Signals :=
  { opreq := true, memory := some false, write := write, adr13 := some true
    adr14 := none, adr := none, intack := false, wrp := write }

/-- The control outputs of an operation, the rows of Table IV-1; the acknowledge is "a normal I/O read sequence" with INTACK, its E/NE, D/C and address not stated (20_memory.md R80; 93_implementation_defined.md item 26). -/
def signalsOf (op : BusOp) : Signals :=
  match op with
  | .memRead a _ => memorySignals false a
  | .memWrite a _ => memorySignals true a
  | .portRead p _ => portSignals false p
  | .portWrite p _ => portSignals true p
  | .extRead _ _ => extendedSignals false
  | .extWrite _ _ => extendedSignals true
  | .intAck _ =>
    { opreq := true, memory := some false, write := false, adr13 := none
      adr14 := none, adr := none, intack := true, wrp := false }

/-- ADR7 to ADR0 during a two-byte I/O operation: byte 1 of the instruction (20_memory.md R80, R83). -/
def extendedAddress (op : BusOp) : Option Byte :=
  match op with
  | .extRead d _ => some d
  | .extWrite d _ => some d
  | .memRead _ _ => none
  | .memWrite _ _ => none
  | .portRead _ _ => none
  | .portWrite _ _ => none
  | .intAck _ => none

end Sys2Proof.Machine
end

