-- ==== Sys2Proof/Machine/Timing.lean ====
section
/-! DEFINITION. Instruction cycle counts (70_reset_and_hazards.md R411). No rule depends on them and step does not add them up (log entry 27). -/

namespace Sys2Proof.Machine

/-- Cycles of a first byte's class without indirect addressing (70_reset_and_hazards.md R411; 30_encoding.md R102). -/
def directCycles (b0 : Byte) : Nat :=
  match classField b0 with
  | 0 => 2
  | 1 => 2
  | 2 => 3
  | 3 => 4
  | 4 => 2
  | 5 => 3
  | 6 => 3
  | _ => 3

/-- Byte 1 holds an indirect bit: classes 2, 3, 6 and 7 (30_encoding.md R103). -/
def hasIndirectBit (b0 : Byte) : Bool :=
  decide (classField b0 = 2) || (decide (classField b0 = 3) || (decide (classField b0 = 6) || decide (classField b0 = 7)))

/-- Cycles of an instruction from its first two bytes: indirect addressing adds two (70_reset_and_hazards.md R411). For a conditional branch this is the figure of the taken one: what an indirect branch not taken spends is not stated. -/
def cyclesOf (b0 b1 : Byte) : Nat :=
  if hasIndirectBit b0 && b1.getLsbD 7 then directCycles b0 + 2 else directCycles b0

/-- A processor cycle is three clock periods (70_reset_and_hazards.md R410). -/
def clockPeriods (cycles : Nat) : Nat := 3 * cycles

end Sys2Proof.Machine
end

