-- ==== Sys2Proof/Safety.lean ====
section
/-! DEFINITION. The terms the statements use: what a step keeps, the operand forms an instruction family has, what counts as plain memory, and what a finished run is. -/

namespace Sys2Proof

open Sys2Proof.Machine

/-! Registers and status bits -/

/-- A general register by bank number (10_state.md R21, R22): R0 is outside both banks. -/
def regIn (bank : Bool) (q : Reg) (s : State) : Byte :=
  match q with
  | .r0 => s.r0
  | .r1 => if bank then s.bank1.r1 else s.bank0.r1
  | .r2 => if bank then s.bank1.r2 else s.bank0.r2
  | .r3 => if bank then s.bank1.r3 else s.bank0.r3

/-- The register that number q names now (10_state.md R22). -/
def regNow (q : Reg) (s : State) : Byte := regIn (rsOf s.psl) q s

/-- Of the seven registers only those of the bank selected in s (R0 among them) that `w` names may differ. -/
def regsKeptBut (w : Reg → Prop) (s t : State) : Prop :=
  (∀ q, ¬ w q → regIn (rsOf s.psl) q t = regIn (rsOf s.psl) q s) ∧
  (∀ q, q ≠ .r0 → regIn (!rsOf s.psl) q t = regIn (!rsOf s.psl) q s)

/-- All seven registers hold what they held. -/
def regsKept (s t : State) : Prop := ∀ b q, regIn b q t = regIn b q s

/-- What the condition code says of a byte, as a number: 00 zero, 01 positive, 10 negative (10_state.md R34). -/
def ccMeaning (v : Byte) : BitVec 2 :=
  if v.toInt = 0 then 0b00 else if 0 < v.toInt then 0b01 else 0b10

/-- What the condition code says of two numbers compared (10_state.md R34). -/
def ccOrder (a b : Int) : BitVec 2 :=
  if b < a then 0b01 else if a = b then 0b00 else 0b10

/-- Every PSL bit but CC is the same. -/
def onlyCC (p q : Byte) : Prop :=
  idcOf q = idcOf p ∧ rsOf q = rsOf p ∧ wcOf q = wcOf p ∧ ovfOf q = ovfOf p ∧ comOf q = comOf p ∧ cOf q = cOf p

/-- The control bits RS, WC, COM are the same (10_state.md R33). -/
def controlKept (p q : Byte) : Prop := rsOf q = rsOf p ∧ wcOf q = wcOf p ∧ comOf q = comOf p

/-- A bit as a number. -/
def bitNat (b : Bool) : Nat := if b then 1 else 0

/-! Frames -/

/-- Every byte of memory reads as before. -/
def memKept (s t : State) : Prop := ∀ a : Addr, t.peek a = s.peek a

/-- What does not come from the devices is the same: the platform's parameters (what stands behind the addresses among them), the pins now and later. -/
def pinsKept (s t : State) : Prop :=
  t.env.platform = s.env.platform ∧ t.env.now = s.env.now ∧ t.env.later = s.env.later

/-- The bits of the PSU that are stored: F, II, SP (10_state.md R26). -/
def psuKept (s t : State) : Prop := t.flag = s.flag ∧ t.ii = s.ii ∧ t.sp = s.sp

/-- State no data-handling instruction touches: IAR, the PSU, the return address stack, the interrupt-waiting latch, the run state, the instruction register and its mark, the platform and the pins. -/
def quiet (s t : State) : Prop :=
  t.iar = s.iar ∧ psuKept s t ∧ t.ras = s.ras ∧ t.intWaiting = s.intWaiting ∧ t.runState = s.runState ∧
    t.ir = s.ir ∧ t.fetchedAhead = s.fetchedAhead ∧ pinsKept s t

/-- The frame of an instruction that neither branches nor stores. -/
def dataFrame (s t : State) : Prop := quiet s t ∧ memKept s t

/-- The frame of a branch: everything but IAR and what the pointer reads did to the devices, and the registers, is as before. -/
def branchFrame (s t : State) : Prop :=
  t.psl = s.psl ∧ psuKept s t ∧ t.ras = s.ras ∧ t.intWaiting = s.intWaiting ∧ t.runState = s.runState ∧
    t.ir = s.ir ∧ t.fetchedAhead = s.fetchedAhead ∧ pinsKept s t ∧ memKept s t

/-- The frame of a subroutine branch: as for a branch, but SP and the stack entry SP names change. -/
def callFrame (s t : State) : Prop :=
  t.psl = s.psl ∧ t.flag = s.flag ∧ t.ii = s.ii ∧ t.intWaiting = s.intWaiting ∧ t.runState = s.runState ∧
    t.ir = s.ir ∧ t.fetchedAhead = s.fetchedAhead ∧ pinsKept s t ∧ memKept s t

/-- The return address `a` was pushed: SP is one more modulo 8 and names an entry that holds it, the seven other entries are as before (47_subroutine.md R270). -/
def pushed (a : Addr) (s t : State) : Prop :=
  t.sp.toNat = (s.sp.toNat + 1) % 8 ∧ rasGet t.ras t.sp = a ∧
    ∀ i : BitVec 3, i ≠ t.sp → rasGet t.ras i = rasGet s.ras i

/-! Devices -/

/-- Every device but the ones at the places `w` names has the answers it had. -/
def answersKeptBut (w : Place → Prop) (s t : State) : Prop :=
  ∀ q, ¬ w q → answersOf q t.env.devices = answersOf q s.env.devices

/-- The read of a place is the operation `op` recorded: it gives the byte v, the next answer of the device there, which has one answer fewer; where no answer is left the byte is open and no device loses one; no other device loses an answer (92_eei_decisions.md D11, D21). -/
def readsPlace (p : Place) (op : Byte → BusOp) (v : Byte) (s t : State) : Prop :=
  t.env.ops = op v :: s.env.ops ∧ answersKeptBut (fun q => q = p) s t ∧
    answersOf p t.env.devices = (answersOf p s.env.devices).tail ∧
    ∀ b, (answersOf p s.env.devices).head? = some b → v = b

/-! Operand forms -/

/-- The two ways an instruction addresses memory: relative (30_encoding.md R106) and absolute (R107). -/
inductive MemForm where
  | rel (r : Reg) (a : RelArg)
  | abs (x : Reg) (a : AbsArg)
deriving DecidableEq, Repr

/-- The effective address of a memory form, with the state after it is computed (20_memory.md R78, R85). -/
def MemForm.ea (m : MemForm) (s : State) : Addr × State :=
  match m with
  | .rel _ a => relEA a s
  | .abs x a => absEA x a s

/-- The operand register of a memory form: the register field, and R0 when indexed (30_encoding.md R107). -/
def MemForm.reg (m : MemForm) : Reg :=
  match m with
  | .rel r _ => r
  | .abs x a => if a.ic = .none then x else .r0

/-- The register a memory form increments or decrements (20_memory.md R85). -/
def MemForm.steps (m : MemForm) (q : Reg) : Prop :=
  match m with
  | .rel _ _ => False
  | .abs x a => (a.ic = .inc ∨ a.ic = .dec) ∧ q = x

/-- What that register receives. -/
def MemForm.stepped (m : MemForm) (v : Byte) : Byte :=
  match m with
  | .rel _ _ => v
  | .abs _ a => if a.ic = .inc then v + 1 else if a.ic = .dec then v - 1 else v

/-- The four forms of a two-operand instruction: register, immediate, and the two memory forms (30_encoding.md R102). -/
inductive Form where
  | z (r : Reg)
  | i (r : Reg) (v : Byte)
  | m (a : MemForm)
deriving DecidableEq, Repr

/-- The first operand register, which receives the result (30_encoding.md R113). -/
def Form.dest (f : Form) : Reg :=
  match f with
  | .z _ => .r0
  | .i r _ => r
  | .m a => a.reg

/-- The second operand byte, with the state after it is read. -/
def Form.operand (f : Form) (s : State) : Byte × State :=
  match f with
  | .z r => (regNow r s, s)
  | .i _ v => (v, s)
  | .m a => memRead (a.ea s).1 (a.ea s).2

/-- The register the form increments or decrements. -/
def Form.steps (f : Form) (q : Reg) : Prop :=
  match f with
  | .z _ => False
  | .i _ _ => False
  | .m a => a.steps q

/-- What that register receives. -/
def Form.stepped (f : Form) (v : Byte) : Byte :=
  match f with
  | .z _ => v
  | .i _ _ => v
  | .m a => a.stepped v

/-- The first operand byte: the destination register after an index register was stepped. -/
def Form.first (f : Form) (s : State) : Byte := regNow f.dest (f.operand s).2

/-- What a load, an add, a subtract or a logical instruction does besides its result and the carry bits: CC says the sign of the result, a stepped index register other than the destination has its new value, no other register, no byte of memory and nothing else changes, and the environment is as the operand read left it (10_state.md R34; 20_memory.md R85). -/
def resultFrame (f : Form) (s t : State) : Prop :=
  ccOf t.psl = ccMeaning (regNow f.dest t) ∧
    (∀ q, f.steps q → q ≠ f.dest → regNow q t = f.stepped (regNow q s)) ∧
    regsKeptBut (fun q => q = f.dest ∨ f.steps q) s t ∧
    dataFrame s t ∧ t.env = (f.operand s).2.env

/-- LODZ, LODI, LODR, LODA. -/
def lodOf (f : Form) : Instr :=
  match f with
  | .z r => .lodz r
  | .i r v => .lodi r v
  | .m (.rel r a) => .lodr r a
  | .m (.abs x a) => .loda x a

/-- ADDZ, ADDI, ADDR, ADDA. -/
def addOf (f : Form) : Instr :=
  match f with
  | .z r => .addz r
  | .i r v => .addi r v
  | .m (.rel r a) => .addr r a
  | .m (.abs x a) => .adda x a

/-- SUBZ, SUBI, SUBR, SUBA. -/
def subOf (f : Form) : Instr :=
  match f with
  | .z r => .subz r
  | .i r v => .subi r v
  | .m (.rel r a) => .subr r a
  | .m (.abs x a) => .suba x a

/-- ANDZ, ANDI, ANDR, ANDA. -/
def andOf (f : Form) : Instr :=
  match f with
  | .z r => .andz r
  | .i r v => .andi r v
  | .m (.rel r a) => .andr r a
  | .m (.abs x a) => .anda x a

/-- IORZ, IORI, IORR, IORA. -/
def iorOf (f : Form) : Instr :=
  match f with
  | .z r => .iorz r
  | .i r v => .iori r v
  | .m (.rel r a) => .iorr r a
  | .m (.abs x a) => .iora x a

/-- EORZ, EORI, EORR, EORA. -/
def eorOf (f : Form) : Instr :=
  match f with
  | .z r => .eorz r
  | .i r v => .eori r v
  | .m (.rel r a) => .eorr r a
  | .m (.abs x a) => .eora x a

/-- COMZ, COMI, COMR, COMA. -/
def comOfForm (f : Form) : Instr :=
  match f with
  | .z r => .comz r
  | .i r v => .comi r v
  | .m (.rel r a) => .comr r a
  | .m (.abs x a) => .coma x a

/-- STRR, STRA. -/
def strOf (m : MemForm) : Instr :=
  match m with
  | .rel r a => .strr r a
  | .abs x a => .stra x a

/-- The relative and the absolute form of a branch (30_encoding.md R106, R108). -/
inductive BranchForm where
  | rel (a : RelArg)
  | abs (a : BrArg)
deriving DecidableEq, Repr

/-- The branch address, with the state after its pointer is read (20_memory.md R78, R86). -/
def BranchForm.ea (f : BranchForm) (s : State) : Addr × State :=
  match f with
  | .rel a => relEA a s
  | .abs a => branchAbsEA a s

/-- BCTR, BCTA. -/
def bctOf (v : CondVal) (f : BranchForm) : Instr :=
  match f with
  | .rel a => .bctr v a
  | .abs a => .bcta v a

/-- BCFR, BCFA. -/
def bcfOf (v : CondVal) (f : BranchForm) : Instr :=
  match f with
  | .rel a => .bcfr v a
  | .abs a => .bcfa v a

/-- BIRR, BIRA. -/
def birOf (r : Reg) (f : BranchForm) : Instr :=
  match f with
  | .rel a => .birr r a
  | .abs a => .bira r a

/-- BDRR, BDRA. -/
def bdrOf (r : Reg) (f : BranchForm) : Instr :=
  match f with
  | .rel a => .bdrr r a
  | .abs a => .bdra r a

/-- BRNR, BRNA. -/
def brnOf (r : Reg) (f : BranchForm) : Instr :=
  match f with
  | .rel a => .brnr r a
  | .abs a => .brna r a

/-- BSTR, BSTA. -/
def bstOf (v : CondVal) (f : BranchForm) : Instr :=
  match f with
  | .rel a => .bstr v a
  | .abs a => .bsta v a

/-- BSFR, BSFA. -/
def bsfOf (v : CondVal) (f : BranchForm) : Instr :=
  match f with
  | .rel a => .bsfr v a
  | .abs a => .bsfa v a

/-- BSNR, BSNA. -/
def bsnOf (r : Reg) (f : BranchForm) : Instr :=
  match f with
  | .rel a => .bsnr r a
  | .abs a => .bsna r a

/-! The table of status bits -/

/-- The instructions that the table lists under CC (10_state.md R43). -/
def writesCC (i : Instr) : Bool :=
  match i with
  | .lodz _ | .lodi _ _ | .lodr _ _ | .loda _ _ | .strz _ => true
  | .strr _ _ | .stra _ _ => false
  | .addz _ | .addi _ _ | .addr _ _ | .adda _ _ | .subz _ | .subi _ _ | .subr _ _ | .suba _ _ => true
  | .andz _ | .andi _ _ | .andr _ _ | .anda _ _ | .iorz _ | .iori _ _ | .iorr _ _ | .iora _ _ => true
  | .eorz _ | .eori _ _ | .eorr _ _ | .eora _ _ | .comz _ | .comi _ _ | .comr _ _ | .coma _ _ => true
  | .rrl _ | .rrr _ | .lpsl | .spsu | .spsl | .ppsl _ | .cpsl _ | .tpsu _ | .tpsl _ | .tmi _ _ => true
  | .lpsu | .ppsu _ | .cpsu _ => false
  | .redc _ | .redd _ | .rede _ _ | .dar _ => true
  | .wrtc _ | .wrtd _ | .wrte _ _ => false
  | .zbrr _ | .bctr _ _ | .bcta _ _ | .bcfr _ _ | .bcfa _ _ | .birr _ _ | .bira _ _ | .bdrr _ _ | .bdra _ _ => false
  | .brnr _ _ | .brna _ _ | .bxa _ | .zbsr _ | .bsxa _ | .bstr _ _ | .bsta _ _ | .bsfr _ _ | .bsfa _ _ => false
  | .bsnr _ _ | .bsna _ _ | .retc _ | .rete _ | .nop | .halt => false

/-- The instructions that the table lists under SP (10_state.md R43). -/
def writesSP (i : Instr) : Bool :=
  match i with
  | .lodz _ | .lodi _ _ | .lodr _ _ | .loda _ _ | .strz _ | .strr _ _ | .stra _ _ => false
  | .addz _ | .addi _ _ | .addr _ _ | .adda _ _ | .subz _ | .subi _ _ | .subr _ _ | .suba _ _ => false
  | .andz _ | .andi _ _ | .andr _ _ | .anda _ _ | .iorz _ | .iori _ _ | .iorr _ _ | .iora _ _ => false
  | .eorz _ | .eori _ _ | .eorr _ _ | .eora _ _ | .comz _ | .comi _ _ | .comr _ _ | .coma _ _ => false
  | .rrl _ | .rrr _ | .lpsl | .spsu | .spsl | .ppsl _ | .cpsl _ | .tpsu _ | .tpsl _ | .tmi _ _ => false
  | .lpsu | .ppsu _ | .cpsu _ => true
  | .redc _ | .redd _ | .rede _ _ | .dar _ | .wrtc _ | .wrtd _ | .wrte _ _ => false
  | .zbrr _ | .bctr _ _ | .bcta _ _ | .bcfr _ _ | .bcfa _ _ | .birr _ _ | .bira _ _ | .bdrr _ _ | .bdra _ _ => false
  | .brnr _ _ | .brna _ _ | .bxa _ => false
  | .zbsr _ | .bsxa _ | .bstr _ _ | .bsta _ _ | .bsfr _ _ | .bsfa _ _ | .bsnr _ _ | .bsna _ _ => true
  | .retc _ | .rete _ => true
  | .nop | .halt => false

/-- The instruction clears II from state s: RETE when taken, CPSU with mask bit 5, LPSU with R0 bit 5 = 0 (60_exceptions.md R349). -/
def clearsII (i : Instr) (s : State) : Prop :=
  (∃ v, i = .rete v ∧ (v = 3 ∨ ccOf s.psl = v)) ∨ (∃ m : Byte, i = .cpsu m ∧ m.getLsbD 5 = true) ∨
    (i = .lpsu ∧ s.r0.getLsbD 5 = false)

/-! Memory and runs -/

/-- Reads at this address are plain: RAM or ROM (20_memory.md R62). -/
def plainAt (s : State) (a : Addr) : Prop := s.env.kindAt a = .ram ∨ s.env.kindAt a = .rom

/-- Plain memory holds these bytes from an address on, in its page (20_memory.md R66). -/
def holdsAt (s : State) (a : Addr) (bs : List Byte) : Prop :=
  match bs with
  | [] => True
  | b :: t => plainAt s a ∧ s.peek a = b ∧ holdsAt s (nextInPage a) t

/-- The address n bytes further in the page (20_memory.md R65). -/
def forward (a : Addr) (n : Nat) : Addr := inPage a (offsetOf a + BitVec.ofNat 13 n)

/-- Neither RESET nor PAUSE is driven in this step. -/
def unforced (s : State) : Prop := s.env.now.reset = false ∧ s.env.now.pause = false

/-- The machine waits for ever: in a HALT wait, with neither a reset nor an acceptable interrupt now or among the inputs to come (00_scope.md R16; 92_eei_decisions.md D15). -/
def finished (s : State) : Prop :=
  s.runState = .waitHalt ∧ s.env.now.reset = false ∧ (s.ii = true ∨ s.env.now.intreq = false) ∧
    ∀ i ∈ s.env.later, i.reset = false ∧ (s.ii = true ∨ i.intreq = false)

/-- The last byte that a list of writes writes to an address. -/
def lastWritten (a : Addr) (ws : List (Addr × Byte)) : Option Byte :=
  match ws with
  | [] => none
  | w :: t => (lastWritten a t).orElse fun _ => if w.1 = a then some w.2 else none

/-- Memory is in its canonical form: addresses strictly rising, all below 32,768. -/
def canonical (s : State) : Prop := Memory.wf s.mem = true

/-- Return addresses pushed one after another (47_subroutine.md R270). -/
def pushAll (as : List Addr) (s : State) : State :=
  match as with
  | [] => s
  | a :: t => pushAll t (pushAndBranch (s.iar, { s with iar := a }))

/-- n returns, with the addresses they return to, first return first (47_subroutine.md R271). -/
def popAll (n : Nat) (s : State) : List Addr × State :=
  match n with
  | 0 => ([], s)
  | k + 1 =>
    let u := popAndReturn s
    (u.iar :: (popAll k u).1, (popAll k u).2)

/-- An instruction repeated n times, stopping where it stops. -/
def repeatInstr (n : Nat) (i : Instr) (s : State) : Result :=
  match n with
  | 0 => .next s
  | k + 1 =>
    match exec i s with
    | .next t => repeatInstr k i t
    | .fault f => .fault f
    | .refused f => .refused f

/-- Instructions one after another, stopping where one stops. -/
def execAll (is : List Instr) (s : State) : Result :=
  match is with
  | [] => .next s
  | i :: rest =>
    match exec i s with
    | .next t => execAll rest t
    | .fault f => .fault f
    | .refused f => .refused f

/-- A byte of two decimal digits. -/
def bcd (hi lo : Nat) : Byte := BitVec.ofNat 8 (16 * hi + lo)

end Sys2Proof
end

