-- ==== Sys2Proof/Certificates/Slice0/Obligations.lean ====
section
/-! DEFINITION. The statements for the provers, from the numbered rules of the spec. -/

open Sys2Proof Sys2Proof.Machine

/-! ## Encoding -/

/-- Every well-formed instruction, of all 75 mnemonics and with every operand value, is what its own bytes decode to, whatever bytes follow (30_encoding.md R103 to R110). -/
def Obligations.DecodeOfEncodeIsTheInstr : Prop :=
  ∀ (i : Instr) (rest : List Byte), i.wellFormed = true → decode (encode i ++ rest) = .ok (i, rest)

/-- What decodes is well-formed, and its bytes are the ones decoded: no byte pattern has two readings and none is ignored (30_encoding.md R111, R117, R120). -/
def Obligations.EncodeOfDecodeIsTheBytes : Prop :=
  ∀ (bs : List Byte) (i : Instr) (rest : List Byte),
    decode bs = .ok (i, rest) → i.wellFormed = true ∧ encode i ++ rest = bs

/-- Bytes fail to decode for one of three reasons only, each with its own name: the first byte is H'00', it is one of the ten unassigned values, or bytes are missing of the one, two or three that the first byte asks for; else they decode (30_encoding.md R118, R119, R124). -/
def Obligations.DecodeFailsOnlyAsTheMapSays : Prop :=
  (∀ rest, decode ((0x00 : Byte) :: rest) = .error .indeterminate) ∧
  (∀ b ∈ unassignedBytes, ∀ rest, decode (b :: rest) = .error (.unassigned b)) ∧
  decode [] = .error .truncated ∧
  (∀ (b : Byte) (rest : List Byte), b ≠ 0x00 → b ∉ unassignedBytes →
    ∃ n, instrLength b = .ok n ∧ 1 ≤ n ∧ n ≤ 3 ∧
      ((b :: rest).length < n → decode (b :: rest) = .error .truncated) ∧
      (n ≤ (b :: rest).length → ∃ i, decode (b :: rest) = .ok (i, (b :: rest).drop n)))

/-- Words written out from the spec's encodings decode to the instructions they stand for (95_test_vectors.md W1, W2, W4, W5, W11, W14, W16, W19). -/
def Obligations.WrittenWordsDecode : Prop :=
  decode [0x0E, 0x80, 0x51] = .ok (.loda .r2 { ind := true, ic := .none, addr := 0x51 }, []) ∧
  decode [0x0A, 0x85] = .ok (.lodr .r2 { ind := true, disp := 5 }, []) ∧
  decode [0x9B, 0x78] = .ok (.zbrr { ind := false, disp := -8 }, []) ∧
  decode [0xBB, 0x76] = .ok (.zbsr { ind := false, disp := -10 }, []) ∧
  decode [0xCC, 0x00, 0x20] = .ok (.stra .r0 { ind := false, ic := .none, addr := 0x20 }, []) ∧
  decode [0x1B, 0x7E] = .ok (.bctr 3 { ind := false, disp := -2 }, []) ∧
  decode [0xDB, 0x79] = .ok (.birr .r3 { ind := false, disp := -7 }, []) ∧
  decode [0x1F, 0x81, 0x50] = .ok (.bcta 3 { ind := true, addr := 0x150 }, []) ∧
  decode [0x0F, 0x24, 0x13] = .ok (.loda .r3 { ind := false, ic := .inc, addr := 0x413 }, [])

/-! ## Addresses -/

/-- In-page arithmetic: the page bits stay and the in-page part counts modulo 8,192 (20_memory.md R65; that IAR advances so is the spec's decision D4). -/
def Obligations.InPageArithmeticWraps : Prop :=
  ∀ (p : Addr) (n : Nat),
    (inPage p (BitVec.ofNat 13 n)).toNat = 8192 * (p.toNat / 8192) + n % 8192 ∧
    (nextInPage p).toNat = 8192 * (p.toNat / 8192) + (p.toNat % 8192 + 1) % 8192 ∧
    forward p n = Nat.iterate nextInPage n p

/-- A direct relative address is the byte after the instruction plus the signed displacement, modulo 8,192 in the instruction's page; with the indirect bit it is the address of the pointer (20_memory.md R78). -/
def Obligations.RelativeAddress : Prop :=
  ∀ (a : RelArg) (s : State),
    (a.ind = false → (relEA a s).2 = s ∧
      ((relEA a s).1.toNat : Int) = 8192 * (s.iar.toNat / 8192 : Nat) + ((s.iar.toNat % 8192 : Nat) + a.disp.toInt) % 8192) ∧
    (a.ind = true → relEA a s = indirect (relEA { ind := false, disp := a.disp } s).1 s)

/-- A zero-relative address is the signed displacement modulo 8,192 in page 0; with the indirect bit it is the address of the pointer (20_memory.md R79). -/
def Obligations.ZeroRelativeAddress : Prop :=
  ∀ (a : RelArg) (s : State),
    (a.ind = false → (zeroRelEA a s).2 = s ∧ ((zeroRelEA a s).1.toNat : Int) = a.disp.toInt % 8192) ∧
    (a.ind = true → zeroRelEA a s = indirect (zeroRelEA { ind := false, disp := a.disp } s).1 s)

/-- An indirect address is read from two bytes, high byte first, the second at the next address of the page, bit 7 of the high byte ignored; in plain memory the reads change nothing (20_memory.md R87; where the second byte lies and that it is read second is the spec's decision D5). -/
def Obligations.IndirectPointer : Prop :=
  ∀ (p : Addr) (s : State),
    (indirect p s).1 = (memRead p s).1.extractLsb' 0 7 ++ (memRead (nextInPage p) (memRead p s).2).1 ∧
    (indirect p s).2 = (memRead (nextInPage p) (memRead p s).2).2 ∧
    (plainAt s p → plainAt s (nextInPage p) → (indirect p s).2 = s ∧
      (indirect p s).1.toNat = 256 * ((s.peek p).toNat % 128) + (s.peek (nextInPage p)).toNat)

/-- The effective address of a non-branch absolute instruction: the 13-bit field in the instruction's page, or the pointer there; indexed, the index register (after its increment or decrement) is added as an unsigned number modulo 8,192 in the page of the address indexed; no other register changes (20_memory.md R85; the wrap after an indirection is the spec's decision D6, register 0 as index D25). -/
def Obligations.AbsoluteAddress : Prop :=
  ∀ (x : Reg) (a : AbsArg) (s : State),
    let base := if a.ind then indirect (inPage s.iar a.addr) s else (inPage s.iar a.addr, s)
    let idx := if a.ic = .none then 0 else ((MemForm.abs x a).stepped (regNow x s)).toNat
    (absEA x a s).1.toNat = 8192 * (base.1.toNat / 8192) + (base.1.toNat % 8192 + idx) % 8192 ∧
    ((a.ic = .inc ∨ a.ic = .dec) → regNow x (absEA x a s).2 = (MemForm.abs x a).stepped (regNow x s)) ∧
    regsKeptBut (MemForm.abs x a).steps s (absEA x a s).2 ∧
    (absEA x a s).2.psl = s.psl ∧ dataFrame s (absEA x a s).2 ∧ (absEA x a s).2.env = base.2.env ∧
    absReg x a = (if a.ic = .none then x else .r0)

/-- The address of an absolute branch is its whole 15-bit field, or the pointer there, at any page; BXA and BSXA add R3 of the current bank as an unsigned number modulo 8,192 in that page (20_memory.md R86, R88; the wrap is the spec's decision D6). -/
def Obligations.BranchAddresses : Prop :=
  ∀ (a : BrArg) (s : State),
    (a.ind = false → branchAbsEA a s = (a.addr, s)) ∧
    (a.ind = true → branchAbsEA a s = indirect a.addr s) ∧
    (indexedBranchEA a s).2 = (branchAbsEA a s).2 ∧
    (indexedBranchEA a s).1.toNat = 8192 * ((branchAbsEA a s).1.toNat / 8192) +
      ((branchAbsEA a s).1.toNat % 8192 + (regNow .r3 s).toNat) % 8192

/-! ## Memory -/

/-- A byte written to RAM is what that address reads as afterwards; ROM and an empty address keep what they hold and a device window is told of the write; every other byte of memory, every register and every pin is as before (20_memory.md R63; ROM and empty addresses are the spec's decision D21). -/
def Obligations.MemoryWrite : Prop :=
  ∀ (a : Addr) (v : Byte) (s : State),
    (s.env.kindAt a = .ram → (memRead a (memWrite a v s)).1 = v ∧ (memWrite a v s).env = s.env) ∧
    (s.env.kindAt a = .rom ∨ s.env.kindAt a = .nothing → memWrite a v s = s) ∧
    (s.env.kindAt a = .device → memWrite a v s = { s with env := { s.env with ops := .memWrite a v :: s.env.ops } }) ∧
    (∀ b, b ≠ a → (memWrite a v s).peek b = s.peek b) ∧
    regsKept s (memWrite a v s) ∧ (memWrite a v s).psl = s.psl ∧ quiet s (memWrite a v s)

/-- A read of RAM or ROM gives the byte held there and changes nothing, so that it can be repeated; a read of a device window takes the next answer of the device at that address and of no other and is recorded; a read of an empty address is told to no device; no read changes memory or a register (20_memory.md R62, R69, R84; the byte of an empty address is open, decision D21; that a device's answers are a list of its own, of which a read takes the head, and that operations are recorded, is the model's choice, log entry 6). -/
def Obligations.MemoryRead : Prop :=
  ∀ (a : Addr) (s : State),
    (plainAt s a → memRead a s = (s.peek a, s)) ∧
    (s.env.kindAt a = .device → readsPlace (.memory a) (.memRead a) (memRead a s).1 s (memRead a s).2) ∧
    (s.env.kindAt a = .nothing →
      (memRead a s).2.env.ops = s.env.ops ∧ (memRead a s).2.env.devices = s.env.devices) ∧
    (memRead a s).2.psl = s.psl ∧ regsKept s (memRead a s).2 ∧ dataFrame s (memRead a s).2

/-- Every step keeps memory in its canonical form: addresses strictly rising and below 32,768 (20_memory.md R60; log entry 3 names the form, which is the model's). -/
def Obligations.StepKeepsMemoryCanonical : Prop :=
  ∀ s t : State, canonical s → step s = .next t → canonical t

/-- Only STRR and STRA store: every other instruction leaves every byte of memory as it reads (20_memory.md R69, R80). -/
def Obligations.OnlyStoresWriteMemory : Prop :=
  ∀ (i : Instr) (s t : State), (∀ m, i ≠ strOf m) → exec i s = .next t → memKept s t

/-- No step of any kind, an instruction, an interrupt, a RESET, a PAUSE wait with its DMA, changes a byte that is not RAM, or what the platform fixes (20_memory.md R63, R75; that a write to ROM or to an empty address does nothing is the spec's decision D21; that the map is fixed data is the model's choice, log entry 4, that DMA reaches RAM only log entry 12, that RESET leaves memory as the abandoned step had made it log entry 25). -/
def Obligations.StepKeepsReadOnlyMemory : Prop :=
  ∀ s t : State, step s = .next t →
    t.env.platform = s.env.platform ∧ ∀ a, s.env.kindAt a ≠ .ram → t.peek a = s.peek a

/-! ## Load and store -/

/-- LODZ, LODI, LODR, LODA: the destination receives the operand byte; STRZ: the register receives R0. CC says the sign of the byte; nothing else changes but the register the index control stepped (40_load_store.md R140 to R145; register 0 as index is the spec's decision D25). -/
def Obligations.LoadsComplete : Prop :=
  (∀ (f : Form) (s : State), ∃ t, exec (lodOf f) s = .next t ∧
    regNow f.dest t = (f.operand s).1 ∧ onlyCC s.psl t.psl ∧ resultFrame f s t) ∧
  (∀ (r : Reg) (s : State), ∃ t, exec (.strz r) s = .next t ∧
    regNow r t = s.r0 ∧ ccOf t.psl = ccMeaning s.r0 ∧ onlyCC s.psl t.psl ∧
    regsKeptBut (fun q => q = r) s t ∧ dataFrame s t ∧ t.env = s.env)

/-- STRR, STRA: where the effective address is RAM it then holds the register's byte (R0's when indexed); a device there is told of the write, and only then does the store itself reach the bus data; a byte that is not RAM, every other byte of memory, every flag, and every register but the one the index control stepped stay (40_load_store.md R146, R147; that a write to ROM or to an empty address does nothing is the spec's decision D21, register 0 as index D25). -/
def Obligations.StoresComplete : Prop :=
  ∀ (m : MemForm) (s : State),
    let ea := (m.ea s).1
    let u := (m.ea s).2
    ∃ t, exec (strOf m) s = .next t ∧
      (s.env.kindAt ea = .ram → t.peek ea = regNow m.reg u) ∧
      (s.env.kindAt ea ≠ .ram → t.peek ea = s.peek ea) ∧
      (∀ b, b ≠ ea → t.peek b = s.peek b) ∧
      (s.env.kindAt ea = .device → t.env = { u.env with ops := .memWrite ea (regNow m.reg u) :: u.env.ops }) ∧
      (s.env.kindAt ea ≠ .device → t.env = u.env) ∧
      (∀ q, m.steps q → regNow q t = m.stepped (regNow q s)) ∧
      regsKeptBut m.steps s t ∧ t.psl = s.psl ∧ quiet s t

/-! ## Arithmetic -/

/-- ADDZ, ADDI, ADDR, ADDA: the destination receives the sum of the two bytes and, when WC = 1, of C, modulo 256; C is the carry out of bit 7, IDC the carry out of bit 3, OVF tells that both operands have one sign and the result the other, CC the sign of the result; RS, WC, COM and all else stay (41_arithmetic.md R160, R162 to R165; register 0 as index is the spec's decision D25). -/
def Obligations.AddsComplete : Prop :=
  ∀ (f : Form) (s : State),
    let a := f.first s
    let b := (f.operand s).1
    let cin := bitNat (wcOf s.psl && cOf s.psl)
    ∃ t, exec (addOf f) s = .next t ∧
      (regNow f.dest t).toNat = (a.toNat + b.toNat + cin) % 256 ∧
      cOf t.psl = decide (256 ≤ a.toNat + b.toNat + cin) ∧
      idcOf t.psl = decide (16 ≤ a.toNat % 16 + b.toNat % 16 + cin) ∧
      ovfOf t.psl = decide (a.msb = b.msb ∧ (regNow f.dest t).msb ≠ a.msb) ∧
      controlKept s.psl t.psl ∧ resultFrame f s t

/-- SUBZ, SUBI, SUBR, SUBA: the destination receives first minus second minus the borrow (1 - C when WC = 1, else 0) modulo 256; C = 1 says no borrow, IDC = 1 no borrow out of bit 3, OVF that the operands differ in sign and the result differs in sign from the first; CC the sign of the result; all else stays (41_arithmetic.md R161, R166 to R169; IDC on a borrow is the spec's decision D20; register 0 as index is the spec's decision D25). -/
def Obligations.SubtractsComplete : Prop :=
  ∀ (f : Form) (s : State),
    let a := f.first s
    let b := (f.operand s).1
    let bin := bitNat (wcOf s.psl && !cOf s.psl)
    ∃ t, exec (subOf f) s = .next t ∧
      ((regNow f.dest t).toNat : Int) = ((a.toNat : Int) - b.toNat - bin) % 256 ∧
      cOf t.psl = decide (b.toNat + bin ≤ a.toNat) ∧
      idcOf t.psl = decide (b.toNat % 16 + bin ≤ a.toNat % 16) ∧
      ovfOf t.psl = decide (a.msb ≠ b.msb ∧ (regNow f.dest t).msb ≠ a.msb) ∧
      controlKept s.psl t.psl ∧ resultFrame f s t

/-- Without carry in (WC = 0) OVF tells exactly that the true signed sum, or difference, does not fit in eight bits (41_arithmetic.md R170 (a), (b)). -/
def Obligations.OverflowIsSignedOverflow : Prop :=
  ∀ p a b : Byte, wcOf p = false →
    (ovfOf (add8 p a b).2 = true ↔ (a.toInt + b.toInt < -128 ∨ 127 < a.toInt + b.toInt)) ∧
    (ovfOf (sub8 p a b).2 = true ↔ (a.toInt - b.toInt < -128 ∨ 127 < a.toInt - b.toInt))

/-- Multi-byte arithmetic: with WC = 1, adding the low bytes after clearing C and then the high bytes gives the 16-bit sum with its carry in C; subtracting in the same order after setting C gives the 16-bit difference, C = 1 saying no borrow (41_arithmetic.md R171). -/
def Obligations.SixteenBitChains : Prop :=
  ∀ p ah al bh bl : Byte, wcOf p = true →
    (cOf p = false →
      let lo := add8 p al bl
      let hi := add8 lo.2 ah bh
      (hi.1 ++ lo.1).toNat = ((ah ++ al).toNat + (bh ++ bl).toNat) % 65536 ∧
      cOf hi.2 = decide (65536 ≤ (ah ++ al).toNat + (bh ++ bl).toNat)) ∧
    (cOf p = true →
      let lo := sub8 p al bl
      let hi := sub8 lo.2 ah bh
      ((hi.1 ++ lo.1).toNat : Int) = (((ah ++ al).toNat : Int) - (bh ++ bl).toNat) % 65536 ∧
      cOf hi.2 = decide ((bh ++ bl).toNat ≤ (ah ++ al).toNat))

/-! ## Logical -/

/-- ANDZ, ANDI, ANDR, ANDA, IORZ, IORI, IORR, IORA, EORZ, EORI, EORR, EORA: each bit of the destination is as the truth table says of the two operand bits; CC says the sign of the result; no other flag and nothing else changes but the register the index control stepped (42_logical.md R180 to R192; register 0 as index is the spec's decision D25). -/
def Obligations.LogicalsComplete : Prop :=
  ∀ (f : Form) (s : State),
    let a := f.first s
    let b := (f.operand s).1
    (∃ t, exec (andOf f) s = .next t ∧ onlyCC s.psl t.psl ∧ resultFrame f s t ∧
      ∀ k, k < 8 → ((regNow f.dest t).getLsbD k = true ↔ a.getLsbD k = true ∧ b.getLsbD k = true)) ∧
    (∃ t, exec (iorOf f) s = .next t ∧ onlyCC s.psl t.psl ∧ resultFrame f s t ∧
      ∀ k, k < 8 → ((regNow f.dest t).getLsbD k = true ↔ a.getLsbD k = true ∨ b.getLsbD k = true)) ∧
    (∃ t, exec (eorOf f) s = .next t ∧ onlyCC s.psl t.psl ∧ resultFrame f s t ∧
      ∀ k, k < 8 → ((regNow f.dest t).getLsbD k = true ↔ a.getLsbD k ≠ b.getLsbD k))

/-! ## Compare -/

/-- COMZ, COMI, COMR, COMA: CC says the order of the first byte and the second, as unsigned numbers when COM = 1 and as two's complement numbers when COM = 0; nothing else changes but the register the index control stepped (43_compare.md R200 to R204; register 0 as index is the spec's decision D25). -/
def Obligations.ComparesComplete : Prop :=
  ∀ (f : Form) (s : State),
    let a := f.first s
    let b := (f.operand s).1
    ∃ t, exec (comOfForm f) s = .next t ∧
      ccOf t.psl = (if comOf s.psl then ccOrder a.toNat b.toNat else ccOrder a.toInt b.toInt) ∧
      onlyCC s.psl t.psl ∧
      (∀ q, f.steps q → regNow q t = f.stepped (regNow q s)) ∧
      regsKeptBut f.steps s t ∧ dataFrame s t ∧ t.env = (f.operand s).2.env

/-! ## Rotates -/

/-- RRL moves every bit up one place, RRR down one place. With WC = 0 the bit moved out comes in at the other end and C, IDC, OVF stay; with WC = 1 C comes in, the bit moved out enters C, IDC is bit 5 of the result and OVF tells that bit 7 changed. CC is the sign of the result; nothing else changes (44_rotate.md R210 to R212; OVF when bit 7 stays is the spec's decision D19). -/
def Obligations.RotatesComplete : Prop :=
  ∀ (r : Reg) (s : State),
    let v := regNow r s
    (∃ t, exec (.rrl r) s = .next t ∧
      (∀ k, k < 7 → (regNow r t).getLsbD (k + 1) = v.getLsbD k) ∧
      (regNow r t).getLsbD 0 = (if wcOf s.psl then cOf s.psl else v.getLsbD 7) ∧
      (wcOf s.psl = true → cOf t.psl = v.getLsbD 7 ∧ idcOf t.psl = v.getLsbD 4 ∧
        ovfOf t.psl = decide (v.getLsbD 6 ≠ v.getLsbD 7) ∧ controlKept s.psl t.psl) ∧
      (wcOf s.psl = false → onlyCC s.psl t.psl) ∧
      ccOf t.psl = ccMeaning (regNow r t) ∧ regsKeptBut (fun q => q = r) s t ∧ dataFrame s t ∧ t.env = s.env) ∧
    (∃ t, exec (.rrr r) s = .next t ∧
      (∀ k, k < 7 → (regNow r t).getLsbD k = v.getLsbD (k + 1)) ∧
      (regNow r t).getLsbD 7 = (if wcOf s.psl then cOf s.psl else v.getLsbD 0) ∧
      (wcOf s.psl = true → cOf t.psl = v.getLsbD 0 ∧ idcOf t.psl = v.getLsbD 6 ∧
        ovfOf t.psl = decide (cOf s.psl ≠ v.getLsbD 7) ∧ controlKept s.psl t.psl) ∧
      (wcOf s.psl = false → onlyCC s.psl t.psl) ∧
      ccOf t.psl = ccMeaning (regNow r t) ∧ regsKeptBut (fun q => q = r) s t ∧ dataFrame s t ∧ t.env = s.env)

/-- Eight RRL with WC = 0 restore the register; nine with WC = 1 restore the register and C; the same of RRR (44_rotate.md R211, R212). -/
def Obligations.RotatesComeRound : Prop :=
  ∀ (i : Instr) (r : Reg) (s : State), (i = .rrl r ∨ i = .rrr r) →
    (wcOf s.psl = false → ∃ t, repeatInstr 8 i s = .next t ∧ regNow r t = regNow r s) ∧
    (wcOf s.psl = true → ∃ t, repeatInstr 9 i s = .next t ∧ regNow r t = regNow r s ∧ cOf t.psl = cOf s.psl)

/-! ## Program status -/

/-- LPSU, PPSU, CPSU: F, II and SP become R0's bits 6, 5 and 2 to 0, or have the mask's bits set, or cleared; Sense, bits 4 and 3, and all else are untouched (45_program_status.md R220, R221, R225, R227; the effect on SP is the spec's own decision D23). -/
def Obligations.UpperStatusWritesComplete : Prop :=
  ∀ (v : Byte) (s : State),
    (exec .lpsu s = .next { s with flag := s.r0.getLsbD 6, ii := s.r0.getLsbD 5, sp := BitVec.ofNat 3 s.r0.toNat }) ∧
    (exec (.ppsu v) s = .next { s with
      flag := s.flag || v.getLsbD 6, ii := s.ii || v.getLsbD 5, sp := s.sp ||| BitVec.ofNat 3 v.toNat }) ∧
    (exec (.cpsu v) s = .next { s with
      flag := s.flag && !v.getLsbD 6, ii := s.ii && !v.getLsbD 5, sp := s.sp &&& ~~~(BitVec.ofNat 3 v.toNat) })

/-- LPSL, PPSL, CPSL: all eight bits of the PSL become R0's, or have the mask's bits set, or cleared, bit by bit; nothing else changes (45_program_status.md R220, R222, R226, R228). -/
def Obligations.LowerStatusWritesComplete : Prop :=
  ∀ (v : Byte) (s : State),
    ∃ t u w, exec .lpsl s = .next t ∧ exec (.ppsl v) s = .next u ∧ exec (.cpsl v) s = .next w ∧
      t = { s with psl := s.r0 } ∧ { u with psl := s.psl } = s ∧ { w with psl := s.psl } = s ∧
      ∀ k, k < 8 →
        (u.psl.getLsbD k = true ↔ s.psl.getLsbD k = true ∨ v.getLsbD k = true) ∧
        (w.psl.getLsbD k = true ↔ s.psl.getLsbD k = true ∧ v.getLsbD k = false)

/-- SPSU, SPSL: R0 receives S, F, II, 0, 0, SP with S the Sense pin now, or the PSL as it was; CC says the sign of the byte stored; nothing else changes (45_program_status.md R220, R223, R224; 10_state.md R27, R30). -/
def Obligations.StatusStoresComplete : Prop :=
  ∀ s : State,
    (∃ t, exec .spsu s = .next t ∧
      t.r0.toNat = 128 * bitNat s.env.now.sense + 64 * bitNat s.flag + 32 * bitNat s.ii + s.sp.toNat ∧
      ccOf t.psl = ccMeaning t.r0 ∧ onlyCC s.psl t.psl ∧
      regsKeptBut (fun q => q = .r0) s t ∧ dataFrame s t ∧ t.env = s.env) ∧
    (∃ t, exec .spsl s = .next t ∧ t.r0 = s.psl ∧
      ccOf t.psl = ccMeaning s.psl ∧ onlyCC s.psl t.psl ∧
      regsKeptBut (fun q => q = .r0) s t ∧ dataFrame s t ∧ t.env = s.env)

/-- TPSU, TPSL, TMI: CC is 00 when every bit the mask selects is 1 in the PSU, the PSL, the register, and 10 when one is 0; a TPSU mask with bit 4 or 3 always gives 10; nothing else changes (45_program_status.md R229, R230; 49_misc.md R322; 10_state.md R30; the mask 0 is the spec's decision D30). -/
def Obligations.BitTestsComplete : Prop :=
  ∀ (r : Reg) (v : Byte) (s : State),
    ∃ t u w, exec (.tpsu v) s = .next t ∧ exec (.tpsl v) s = .next u ∧ exec (.tmi r v) s = .next w ∧
      ((∀ k, k < 8 → v.getLsbD k = true → (psuRead s).getLsbD k = true) → ccOf t.psl = 0b00) ∧
      (∀ k, k < 8 → v.getLsbD k = true → (psuRead s).getLsbD k = false → ccOf t.psl = 0b10) ∧
      ((v.getLsbD 4 = true ∨ v.getLsbD 3 = true) → ccOf t.psl = 0b10) ∧
      ((∀ k, k < 8 → v.getLsbD k = true → s.psl.getLsbD k = true) → ccOf u.psl = 0b00) ∧
      (∀ k, k < 8 → v.getLsbD k = true → s.psl.getLsbD k = false → ccOf u.psl = 0b10) ∧
      ((∀ k, k < 8 → v.getLsbD k = true → (regNow r s).getLsbD k = true) → ccOf w.psl = 0b00) ∧
      (∀ k, k < 8 → v.getLsbD k = true → (regNow r s).getLsbD k = false → ccOf w.psl = 0b10) ∧
      (onlyCC s.psl t.psl ∧ { t with psl := s.psl } = s) ∧
      (onlyCC s.psl u.psl ∧ { u with psl := s.psl } = s) ∧
      (onlyCC s.psl w.psl ∧ { w with psl := s.psl } = s)

/-! ## Branches -/

/-- BCTR, BCTA, BCFR, BCFA: the "true" ones go to the branch address when v = 3 or CC = v, the "false" ones (v not 3) when CC is not v; else the next instruction follows and nothing at all changes, but where the platform has the pointer of an untaken branch read; no flag and no register changes (46_branch.md R240, R241, R243 to R246; that a branch not taken reads no pointer is the spec's decision D18, with the platform parameter of 93_implementation_defined.md item 22 against it, log entry 16). -/
def Obligations.ConditionalBranchesComplete : Prop :=
  ∀ (v : CondVal) (f : BranchForm) (s : State),
    (∃ t, exec (bctOf v f) s = .next t ∧
      ((v = 3 ∨ ccOf s.psl = v) → t.iar = (f.ea s).1 ∧ regsKept s t ∧ branchFrame s t ∧ t.env = (f.ea s).2.env) ∧
      (¬ (v = 3 ∨ ccOf s.psl = v) → t = if s.env.platform.untakenPointer then (f.ea s).2 else s)) ∧
    (v ≠ 3 → ∃ t, exec (bcfOf v f) s = .next t ∧
      (ccOf s.psl ≠ v → t.iar = (f.ea s).1 ∧ regsKept s t ∧ branchFrame s t ∧ t.env = (f.ea s).2.env) ∧
      (ccOf s.psl = v → t = if s.env.platform.untakenPointer then (f.ea s).2 else s))

/-- BIRR, BIRA, BDRR, BDRA: the register counts up, or down, by one modulo 256 whether or not the branch is taken; the branch is taken exactly when the new value is not 0; no flag changes (46_branch.md R241, R247 to R250; that a branch not taken reads no pointer is the spec's decision D18, with the platform parameter of 93_implementation_defined.md item 22 against it, log entry 16). -/
def Obligations.CountingBranchesComplete : Prop :=
  ∀ (r : Reg) (f : BranchForm) (s : State),
    (∃ t, exec (birOf r f) s = .next t ∧
      (regNow r t).toNat = ((regNow r s).toNat + 1) % 256 ∧
      regsKeptBut (fun q => q = r) s t ∧ branchFrame s t ∧
      (regNow r s ≠ 255 → t.iar = (f.ea s).1 ∧ t.env = (f.ea s).2.env) ∧
      (regNow r s = 255 → t.iar = s.iar ∧ t.env = (if s.env.platform.untakenPointer then (f.ea s).2 else s).env)) ∧
    (∃ t, exec (bdrOf r f) s = .next t ∧
      (regNow r t).toNat = ((regNow r s).toNat + 255) % 256 ∧
      regsKeptBut (fun q => q = r) s t ∧ branchFrame s t ∧
      (regNow r s ≠ 1 → t.iar = (f.ea s).1 ∧ t.env = (f.ea s).2.env) ∧
      (regNow r s = 1 → t.iar = s.iar ∧ t.env = (if s.env.platform.untakenPointer then (f.ea s).2 else s).env))

/-! ## Subroutine branches and returns -/

/-- BSTR, BSTA, BSFR, BSFA: when the condition holds, the address after the instruction is pushed and IAR receives the branch address; else nothing at all changes, but where the platform has the pointer of an untaken branch read (47_subroutine.md R270, R273 to R276; that a branch not taken reads no pointer is the spec's decision D18, with the platform parameter of 93_implementation_defined.md item 22 against it, log entry 16). -/
def Obligations.ConditionalCallsComplete : Prop :=
  ∀ (v : CondVal) (f : BranchForm) (s : State),
    (∃ t, exec (bstOf v f) s = .next t ∧
      ((v = 3 ∨ ccOf s.psl = v) → t.iar = (f.ea s).1 ∧ pushed s.iar s t ∧ regsKept s t ∧ callFrame s t ∧ t.env = (f.ea s).2.env) ∧
      (¬ (v = 3 ∨ ccOf s.psl = v) → t = if s.env.platform.untakenPointer then (f.ea s).2 else s)) ∧
    (v ≠ 3 → ∃ t, exec (bsfOf v f) s = .next t ∧
      (ccOf s.psl ≠ v → t.iar = (f.ea s).1 ∧ pushed s.iar s t ∧ regsKept s t ∧ callFrame s t ∧ t.env = (f.ea s).2.env) ∧
      (ccOf s.psl = v → t = if s.env.platform.untakenPointer then (f.ea s).2 else s))

/-- BRNR, BRNA branch, and BSNR, BSNA call, exactly when the register is not 0; else the next instruction follows and nothing at all changes, but where the platform has the pointer of an untaken branch read (46_branch.md R241, R251, R252; 47_subroutine.md R270, R277, R278; that a branch not taken reads no pointer is the spec's decision D18, with the platform parameter of 93_implementation_defined.md item 22 against it, log entry 16). -/
def Obligations.RegisterTestsComplete : Prop :=
  ∀ (r : Reg) (f : BranchForm) (s : State),
    (∃ t, exec (brnOf r f) s = .next t ∧
      (regNow r s ≠ 0 → t.iar = (f.ea s).1 ∧ regsKept s t ∧ branchFrame s t ∧ t.env = (f.ea s).2.env) ∧
      (regNow r s = 0 → t = if s.env.platform.untakenPointer then (f.ea s).2 else s)) ∧
    (∃ t, exec (bsnOf r f) s = .next t ∧
      (regNow r s ≠ 0 → t.iar = (f.ea s).1 ∧ pushed s.iar s t ∧ regsKept s t ∧ callFrame s t ∧ t.env = (f.ea s).2.env) ∧
      (regNow r s = 0 → t = if s.env.platform.untakenPointer then (f.ea s).2 else s))

/-- ZBRR and ZBSR go to the zero-relative address, BXA and BSXA to the indexed branch address, always; ZBSR and BSXA push the address after the instruction; nothing else changes (46_branch.md R242, R253; 47_subroutine.md R270, R272, R279). -/
def Obligations.UnconditionalTransfersComplete : Prop :=
  ∀ (a : RelArg) (b : BrArg) (s : State), ∃ t u v w,
    exec (.zbrr a) s = .next t ∧ exec (.bxa b) s = .next u ∧ exec (.zbsr a) s = .next v ∧ exec (.bsxa b) s = .next w ∧
      (t.iar = (zeroRelEA a s).1 ∧ regsKept s t ∧ branchFrame s t ∧ t.env = (zeroRelEA a s).2.env) ∧
      (u.iar = (indexedBranchEA b s).1 ∧ regsKept s u ∧ branchFrame s u ∧ u.env = (indexedBranchEA b s).2.env) ∧
      (v.iar = (zeroRelEA a s).1 ∧ pushed s.iar s v ∧ regsKept s v ∧ callFrame s v ∧ v.env = (zeroRelEA a s).2.env) ∧
      (w.iar = (indexedBranchEA b s).1 ∧ pushed s.iar s w ∧ regsKept s w ∧ callFrame s w ∧ w.env = (indexedBranchEA b s).2.env)

/-- RETC, RETE: when v = 3 or CC = v, IAR receives the stack entry SP names and SP counts down modulo 8, the entry staying; RETE then also clears II; else nothing at all changes (47_subroutine.md R271, R280, R281). -/
def Obligations.ReturnsComplete : Prop :=
  ∀ (v : CondVal) (s : State), ∃ t u, exec (.retc v) s = .next t ∧ exec (.rete v) s = .next u ∧
    ((v = 3 ∨ ccOf s.psl = v) →
      t.iar = rasGet s.ras s.sp ∧ t.sp.toNat = (s.sp.toNat + 7) % 8 ∧ { t with iar := s.iar, sp := s.sp } = s ∧
      u.ii = false ∧ u = { t with ii := u.ii }) ∧
    (¬ (v = 3 ∨ ccOf s.psl = v) → t = s ∧ u = s)

/-- The return address stack is last in, first out for eight levels from any SP; a ninth push overwrites the oldest entry, and a ninth pop gives the newest one again (47_subroutine.md R282; 10_state.md R31, R32; the wrap is the spec's decision D7). -/
def Obligations.StackIsEightLevelsLastInFirstOut : Prop :=
  (∀ (as : List Addr) (s : State), as.length ≤ 8 →
    (popAll as.length (pushAll as s)).1 = as.reverse ∧ (popAll as.length (pushAll as s)).2.sp = s.sp) ∧
  (∀ (a : Addr) (as : List Addr) (s : State), as.length = 8 →
    (popAll 9 (pushAll (a :: as) s)).1 = as.reverse ++ [as.getLast?.getD a])

/-! ## Input and output -/

/-- REDD, REDC, REDE: the register receives the byte read at the Data port, the Control port, the extended address: the next answer of the device there, which loses it, and of no other; where there is no answer the byte is open and the rest happens the same. The operation is the next one recorded and CC says the byte's sign; nothing else changes (48_io.md R300 to R303; the three spaces are the spec's decision D11, a port with no device D21; that a device's answers are a list is the model's choice, log entry 6). -/
def Obligations.InputsComplete : Prop :=
  ∀ (r : Reg) (d : Byte) (s : State), ∃ t u w,
    exec (.redd r) s = .next t ∧ exec (.redc r) s = .next u ∧ exec (.rede r d) s = .next w ∧
      readsPlace (.port .data) (.portRead .data) (regNow r t) s t ∧
      readsPlace (.port .control) (.portRead .control) (regNow r u) s u ∧
      readsPlace (.extended d) (.extRead d) (regNow r w) s w ∧
      (ccOf t.psl = ccMeaning (regNow r t) ∧ onlyCC s.psl t.psl ∧ regsKeptBut (fun q => q = r) s t ∧ dataFrame s t) ∧
      (ccOf u.psl = ccMeaning (regNow r u) ∧ onlyCC s.psl u.psl ∧ regsKeptBut (fun q => q = r) s u ∧ dataFrame s u) ∧
      (ccOf w.psl = ccMeaning (regNow r w) ∧ onlyCC s.psl w.psl ∧ regsKeptBut (fun q => q = r) s w ∧ dataFrame s w)

/-- WRTD, WRTC, WRTE: exactly one operation is recorded, carrying the register's byte and the port or device address; no register, no flag and nothing else changes (48_io.md R300, R304 to R306). -/
def Obligations.OutputsComplete : Prop :=
  ∀ (r : Reg) (d : Byte) (s : State), ∃ t u w,
    exec (.wrtd r) s = .next t ∧ exec (.wrtc r) s = .next u ∧ exec (.wrte r d) s = .next w ∧
      (t.env.ops = .portWrite .data (regNow r s) :: s.env.ops ∧ { t with env := { t.env with ops := s.env.ops } } = s) ∧
      (u.env.ops = .portWrite .control (regNow r s) :: s.env.ops ∧ { u with env := { u.env with ops := s.env.ops } } = s) ∧
      (w.env.ops = .extWrite d (regNow r s) :: s.env.ops ∧ { w with env := { w.env with ops := s.env.ops } } = s)

/-- Every external operation has the outputs of its row of Table IV-1: OPREQ; M/IO 1 for memory and 0 for I/O and the acknowledge; R/W 0 for reads and 1 for writes, with WRP on writes only; E/NE and D/C, which carry address bits 13 and 14 of a memory operation; the address; INTACK for the acknowledge only. By these outputs no two kinds of operation, addresses, ports or devices can be confused (20_memory.md R80, R82, R83; none stands where the table says don't care, no valid information or not stated). -/
def Obligations.OperationsAreToldApart : Prop :=
  (∀ (a : Addr) (v : Byte),
    signalsOf (.memRead a v) = { opreq := true, memory := some true, write := false, adr13 := some (a.getLsbD 13), adr14 := some (a.getLsbD 14), adr := some (BitVec.ofNat 13 a.toNat), intack := false, wrp := false } ∧
    signalsOf (.memWrite a v) = { opreq := true, memory := some true, write := true, adr13 := some (a.getLsbD 13), adr14 := some (a.getLsbD 14), adr := some (BitVec.ofNat 13 a.toNat), intack := false, wrp := true }) ∧
  (∀ d v : Byte,
    signalsOf (.extRead d v) = { opreq := true, memory := some false, write := false, adr13 := some true, adr14 := none, adr := none, intack := false, wrp := false } ∧
    signalsOf (.extWrite d v) = { opreq := true, memory := some false, write := true, adr13 := some true, adr14 := none, adr := none, intack := false, wrp := true } ∧
    extendedAddress (.extRead d v) = some d ∧ extendedAddress (.extWrite d v) = some d) ∧
  (∀ v : Byte,
    signalsOf (.portRead .control v) = { opreq := true, memory := some false, write := false, adr13 := some false, adr14 := some false, adr := none, intack := false, wrp := false } ∧
    signalsOf (.portWrite .control v) = { opreq := true, memory := some false, write := true, adr13 := some false, adr14 := some false, adr := none, intack := false, wrp := true } ∧
    signalsOf (.portRead .data v) = { opreq := true, memory := some false, write := false, adr13 := some false, adr14 := some true, adr := none, intack := false, wrp := false } ∧
    signalsOf (.portWrite .data v) = { opreq := true, memory := some false, write := true, adr13 := some false, adr14 := some true, adr := none, intack := false, wrp := true } ∧
    signalsOf (.intAck v) = { opreq := true, memory := some false, write := false, adr13 := none, adr14 := none, adr := none, intack := true, wrp := false }) ∧
  ∀ (p q : BusOp), signalsOf p = signalsOf q → extendedAddress p = extendedAddress q →
    match p with
    | .memRead a _ => ∃ v, q = .memRead a v
    | .memWrite a _ => ∃ v, q = .memWrite a v
    | .portRead n _ => ∃ v, q = .portRead n v
    | .portWrite n _ => ∃ v, q = .portWrite n v
    | .extRead d _ => ∃ v, q = .extRead d v
    | .extWrite d _ => ∃ v, q = .extWrite d v
    | .intAck _ => ∃ v, q = .intAck v

/-! ## Miscellaneous -/

/-- NOP changes nothing; HALT changes the run state to WAIT and nothing else (49_misc.md R321, R324). -/
def Obligations.NopAndHaltComplete : Prop :=
  ∀ s : State, exec .nop s = .next s ∧
    ∃ t, exec .halt s = .next t ∧ t.runState = .waitHalt ∧ runPin t = false ∧ flagPin t = flagPin s ∧
      { t with runState := s.runState } = s

/-- DAR: ten is added, modulo 16, to the high digit when C = 0 and to the low digit when IDC = 0, with no carry between them; whatever it leaves in CC, every other PSL bit and all else stays (49_misc.md R323; the digits apart are the spec's decision D24, and no value of CC is claimed, D8). -/
def Obligations.DecimalAdjustCompletes : Prop :=
  ∀ (r : Reg) (s : State),
    let v := (regNow r s).toNat
    ∃ t, exec (.dar r) s = .next t ∧
      (regNow r t).toNat / 16 = (v / 16 + (if cOf s.psl then 0 else 10)) % 16 ∧
      (regNow r t).toNat % 16 = (v % 16 + (if idcOf s.psl then 0 else 10)) % 16 ∧
      onlyCC s.psl t.psl ∧ regsKeptBut (fun q => q = r) s t ∧ dataFrame s t ∧
      t.env.devices = s.env.devices ∧ t.env.ops = s.env.ops

/-- The manual's decimal procedures are right: with WC = 0, adding H'66' and then the addend and adjusting gives the two-digit decimal sum with the decimal carry in C; subtracting and adjusting gives the two-digit decimal difference, C = 0 telling a borrow (49_misc.md R323). -/
def Obligations.DecimalArithmetic : Prop :=
  ∀ (r : Reg) (s : State) (x1 x0 y1 y0 : Nat), x1 < 10 → x0 < 10 → y1 < 10 → y0 < 10 →
    wcOf s.psl = false → regNow r s = bcd x1 x0 →
    (∃ t, execAll [.addi r 0x66, .addi r (bcd y1 y0), .dar r] s = .next t ∧
      let sum := 10 * x1 + x0 + (10 * y1 + y0)
      regNow r t = bcd (sum % 100 / 10) (sum % 10) ∧ cOf t.psl = decide (100 ≤ sum)) ∧
    (∃ t, execAll [.subi r (bcd y1 y0), .dar r] s = .next t ∧
      let diff := 100 + (10 * x1 + x0) - (10 * y1 + y0)
      regNow r t = bcd (diff % 100 / 10) (diff % 10) ∧ cOf t.psl = decide (10 * y1 + y0 ≤ 10 * x1 + x0))

/-! ## Rules over all instructions -/

/-- Every instruction completes in every state: the 2650 raises no synchronous exception; of the run state only HALT changes anything (60_exceptions.md R340; 10_state.md R46). -/
def Obligations.EveryInstructionCompletes : Prop :=
  ∀ (i : Instr) (s : State), ∃ t, exec i s = .next t ∧
    (i ≠ .halt → t.runState = s.runState) ∧ t.intWaiting = s.intWaiting ∧ t.ir = s.ir ∧
    t.fetchedAhead = s.fetchedAhead ∧ pinsKept s t

/-- The table of which instructions write which status bits, read as what the others leave alone: RS, WC, COM change only by LPSL, PPSL, CPSL; C, IDC, OVF only by those, adds, subtracts and, with WC = 1, rotates; F only by LPSU, PPSU, CPSU; II only by those and RETE; an instruction the table does not list under CC leaves the whole PSL as it is, and one it does not list under SP leaves SP (10_state.md R28, R29, R31, R33, R35, R43). -/
def Obligations.StatusBitsChangeOnlyAsTabulated : Prop :=
  ∀ (i : Instr) (s t : State), exec i s = .next t →
    (i ≠ .lpsl → (∀ v, i ≠ .ppsl v) → (∀ v, i ≠ .cpsl v) →
      controlKept s.psl t.psl ∧
      ((∀ f, i ≠ addOf f) → (∀ f, i ≠ subOf f) → (wcOf s.psl = true → (∀ r, i ≠ .rrl r) ∧ (∀ r, i ≠ .rrr r)) →
        onlyCC s.psl t.psl)) ∧
    (i ≠ .lpsu → (∀ v, i ≠ .ppsu v) → (∀ v, i ≠ .cpsu v) →
      t.flag = s.flag ∧ ((∀ v, i ≠ .rete v) → t.ii = s.ii)) ∧
    (writesCC i = false → t.psl = s.psl) ∧
    (writesSP i = false → t.sp = s.sp)

/-- CC is never set to 11 but by LPSL, PPSL, and perhaps DAR, whose value no source gives: from a state whose CC is not 11 every other instruction leaves a CC that is not 11 (10_state.md R36; the exception for DAR is decision D8). -/
def Obligations.ConditionCodeNeverSetToThree : Prop :=
  ∀ (i : Instr) (s t : State), exec i s = .next t →
    i ≠ .lpsl → (∀ v, i ≠ .ppsl v) → (∀ r, i ≠ .dar r) → ccOf s.psl ≠ 0b11 → ccOf t.psl ≠ 0b11

/-- The return address stack is written only by subroutine branches; SP changes only by those, by returns, and by LPSU, PPSU, CPSU (10_state.md R31, R32). -/
def Obligations.StackChangesOnlyByCallsAndReturns : Prop :=
  ∀ (i : Instr) (s t : State), exec i s = .next t →
    (∀ a, i ≠ .zbsr a) → (∀ a, i ≠ .bsxa a) → (∀ v f, i ≠ bstOf v f) → (∀ v f, i ≠ bsfOf v f) → (∀ r f, i ≠ bsnOf r f) →
      t.ras = s.ras ∧
      (i ≠ .lpsu → (∀ v, i ≠ .ppsu v) → (∀ v, i ≠ .cpsu v) → (∀ v, i ≠ .retc v) → (∀ v, i ≠ .rete v) → t.sp = s.sp)

/-- Register banks: the bank not selected keeps its contents through every instruction; setting RS makes R1 to R3 name bank 1 and clearing it bank 0, with what each bank held, R0 being common to both (10_state.md R22). -/
def Obligations.UnselectedBankIsKept : Prop :=
  (∀ (i : Instr) (s t : State), exec i s = .next t →
    ∀ q, q ≠ .r0 → regIn (!rsOf s.psl) q t = regIn (!rsOf s.psl) q s) ∧
  (∀ s : State, ∃ t u, exec (.ppsl 0x10) s = .next t ∧ exec (.cpsl 0x10) s = .next u ∧
    ∀ q, regNow q t = regIn true q s ∧ regNow q u = regIn false q s)

/-! ## Steps -/

/-- A step runs the decoded instruction: when plain memory at IAR holds the bytes of a well-formed instruction, in the RUN state with no RESET, PAUSE or acceptable interrupt, the step is exec of that instruction with IAR past its bytes and IR its first byte; then the environment's next inputs are taken (30_encoding.md R100; 20_memory.md R66). That the interrupt-waiting latch is then as INTREQ is rests on log entry 9, and the mark of the byte fetched ahead is the model's own, log entry 11; fetches from a device or from an empty address are not in this statement. -/
def Obligations.StepRunsTheDecodedInstr : Prop :=
  ∀ (s : State) (i : Instr), i.wellFormed = true → holdsAt s s.iar (encode i) →
    s.runState = .run → unforced s → interruptAccepted s = false →
    step s = endStep (exec i { s with
      iar := forward s.iar (encode i).length
      ir := (encode i).headD 0
      intWaiting := s.env.now.intreq
      fetchedAhead := true })

/-- A first byte with no mnemonic stops the run where the platform's policy is to stop: H'00' and the ten unassigned bytes raise their own named outcomes, with the address; where the policy is any state afterwards the run goes on in a state of which nothing is claimed; and no other first byte stops it. The first byte is the one fetched at IAR in the RUN state, from memory of any kind, or the one held when a PAUSE wait is released with no remembered request to enter (60_exceptions.md R341; 30_encoding.md R118, R119; the outcomes and the policies are the spec's decisions D1, D2, log entry 23; the remembered request is log entry 9). -/
def Obligations.OnlyElevenFirstBytesFault : Prop :=
  ∀ (s : State) (b : Byte), unforced s →
    (s.runState = .run ∧ interruptAccepted s = false ∧ b = (fetchByte s).1 ∨
      s.runState = .waitPause ∧ (s.intWaiting && !s.ii) = false ∧ b = s.ir) →
    (b = 0x00 →
      (s.env.platform.opcode00 = .stop → step s = .fault (.indeterminateOpcode s.iar)) ∧
      (s.env.platform.opcode00 = .anyState → ∃ t, step s = .next t)) ∧
    (b ∈ unassignedBytes →
      (s.env.platform.unassigned = .stop → step s = .fault (.unassignedOpcode s.iar b)) ∧
      (s.env.platform.unassigned = .anyState → ∃ t, step s = .next t)) ∧
    (b ≠ 0x00 → b ∉ unassignedBytes → ∃ t, step s = .next t)

/-- Taking an interrupt, in the RUN state or a HALT wait: II is set, the run state is RUN, the first byte of ZBSR is in IR, the address of the instruction that would have run next is pushed, IAR receives the zero-relative address of the vector byte the device supplies; no register, no PSL bit, not F, and no byte of memory changes; of the devices the acknowledge takes one vector byte, an open one where no answer is left, the pointer of an indirect vector is read as it stands then, and in the RUN state, after an instruction, a device at IAR was read once before (60_exceptions.md R345 to R348, R358; 70_reset_and_hazards.md R400 (d)). That the interrupt-waiting latch falls is log entry 9, that PAUSE does not hold back the entry from a HALT wait log entry 10, the mark for the early read log entry 11, that a device's answers are a list of its own and operations are recorded newest first log entry 6; the open byte is decision D21, where the second byte of a pointer lies D5, both the spec's. -/
def Obligations.InterruptEntry : Prop :=
  ∀ s : State, s.env.now.reset = false → s.ii = false → s.env.now.intreq = true →
    (s.runState = .run ∧ s.env.now.pause = false ∨ s.runState = .waitHalt) →
    ∃ t, step s = .next t ∧ t.runState = .run ∧ t.ii = true ∧ t.intWaiting = false ∧ t.ir = 0xBB ∧ pushed s.iar s t ∧
      t.fetchedAhead = s.fetchedAhead ∧ regsKept s t ∧ t.psl = s.psl ∧ t.flag = s.flag ∧ memKept s t ∧
      t.env.platform = s.env.platform ∧
      (∃ (v : Byte) (w : State),
        let target := zeroRelEA (RelArg.ofByte v) w
        let early := s.runState = .run ∧ s.fetchedAhead = true ∧ s.env.kindAt s.iar = .device
        (∀ b, (answersOf .vector s.env.devices).head? = some b → v = b) ∧ memKept s w ∧ pinsKept s w ∧
          answersOf .vector w.env.devices = (answersOf .vector s.env.devices).tail ∧
          answersKeptBut (fun q => q = .vector ∨ early ∧ q = .memory s.iar) s w ∧
          (early → ∃ b, w.env.ops = .intAck v :: .memRead s.iar b :: s.env.ops) ∧
          (¬ early → w.env.ops = .intAck v :: s.env.ops) ∧
          t.iar = target.1 ∧ t.env.ops = target.2.env.ops ∧ t.env.devices = target.2.env.devices) ∧
      ∀ v rest, answersOf .vector s.env.devices = v :: rest →
        let d := (v.extractLsb' 0 7).toInt % 8192
        let p : Addr := BitVec.ofInt 15 d
        let early := s.runState = .run ∧ s.fetchedAhead = true ∧ s.env.kindAt s.iar = .device
        (v.getLsbD 7 = true → plainAt s p ∧ plainAt s (nextInPage p)) →
          (v.getLsbD 7 = false → (t.iar.toNat : Int) = d) ∧
          (v.getLsbD 7 = true → t.iar.toNat = 256 * ((s.peek p).toNat % 128) + (s.peek (nextInPage p)).toNat) ∧
          answersOf .vector t.env.devices = rest ∧
          answersKeptBut (fun q => q = .vector ∨ early ∧ q = .memory s.iar) s t ∧
          (early → ∃ b, t.env.ops = .intAck v :: .memRead s.iar b :: s.env.ops) ∧
          (¬ early → t.env.ops = .intAck v :: s.env.ops)

/-- An INTREQ is not recognised while II = 1: in the RUN state the instruction at IAR runs, in a HALT wait, with PAUSE asserted or not, the wait goes on with nothing pushed, and on the release of a PAUSE wait the instruction whose first byte is held runs (60_exceptions.md R343, R354; that the interrupt-waiting latch is then as INTREQ is, and that a remembered request too is entered at the release only with II = 0, is log entry 9, DEDUCED; that PAUSE changes nothing in a HALT wait is log entry 10; the mark of the byte fetched ahead is log entry 11). -/
def Obligations.InhibitMasksTheInterrupt : Prop :=
  ∀ s : State, s.env.now.reset = false → s.ii = true →
    (s.runState = .run → s.env.now.pause = false → step s = endStep (runInstr (senseRequest s))) ∧
    (s.runState = .waitHalt → ∃ t, step s = .next t ∧ t.runState = .waitHalt ∧ t.iar = s.iar ∧ t.sp = s.sp ∧
      t.ras = s.ras ∧ regsKept s t ∧ t.psl = s.psl ∧ t.ii = true ∧ t.flag = s.flag ∧ memKept s t) ∧
    (s.runState = .waitPause → s.env.now.pause = false →
      step s = endStep (runDecoded s.iar s.ir
        { s with iar := nextInPage s.iar, runState := .run, intWaiting := s.env.now.intreq, fetchedAhead := true }))

/-- A request waiting when an instruction clears II is taken before any other instruction runs: after the step of a taken RETE, a CPSU with mask bit 5, or an LPSU with R0 bit 5 = 0, the next step is the interrupt entry; it pushes the address just popped by RETE, and after CPSU and LPSU the address of the instruction that follows; no register and no PSL bit changes in the two steps (60_exceptions.md R349, R350; 45_program_status.md R221, R227). -/
def Obligations.EnablingAdmitsTheWaitingRequest : Prop :=
  ∀ (s t : State) (i : Instr), clearsII i s → holdsAt s s.iar (encode i) → s.runState = .run → unforced s →
    s.ii = true → step s = .next t → unforced t → t.env.now.intreq = true →
    t.ii = false ∧
    ((∃ v, i = .rete v) → t.iar = rasGet s.ras s.sp) ∧
    ((∀ v, i ≠ .rete v) → t.iar = forward s.iar (encode i).length) ∧
    ∃ u, step t = .next u ∧ u.runState = .run ∧ u.ii = true ∧ pushed t.iar t u ∧ regsKept s u ∧ u.psl = s.psl ∧
      ((∃ v, i = .rete v) → u.sp = s.sp ∧ rasGet u.ras u.sp = rasGet s.ras s.sp)

/-- The end of a run: in a HALT wait with no reset and no acceptable interrupt to come every step leaves the whole state as it is but for the environment's inputs, which go on, and the interrupt-waiting latch, which is as INTREQ is (log entry 9), and the wait is still without end (00_scope.md R16; 60_exceptions.md R376; the waiting step is the model's, log entry 28). -/
def Obligations.FinishedRunsStayFinished : Prop :=
  ∀ s : State, finished s → ∃ t, step s = .next t ∧ finished t ∧
    { t with intWaiting := s.intWaiting, env := s.env } = s ∧ t.intWaiting = s.env.now.intreq ∧
    { t.env with now := s.env.now, later := s.env.later } = s.env

/-- RESET, from any state, at a boundary or in the middle of a step: IAR is 0, II is 0, and the processor runs with no interrupt waiting, but from a PAUSE wait whose PAUSE stays it fetches byte 0 of address 0, waits again, and on release executes the instruction so begun; a request asserted with that RESET is noted as the wait is entered again and is entered first on release, the model's choice where the spec does not join its rules (log entry 35; the latch is log entry 9, the mark of the byte fetched ahead, which RESET clears, log entry 11; that RESET itself leaves memory as it is, and the count of operations before RESET, log entry 25; that each step of a RESET that is held does all this anew, log entry 36); nothing is claimed of the items left unspecified (70_reset_and_hazards.md R380, R382, R383; 60_exceptions.md R353). -/
def Obligations.ResetRestartsTheProcessor : Prop :=
  ∀ s : State, s.env.now.reset = true →
    (s.env.now.resetAfter = 0 → ∃ t, step s = .next t) ∧
    ∀ t, step s = .next t → t.iar = 0 ∧ t.ii = false ∧ t.fetchedAhead = false ∧
      (t.runState = .run ∧ t.intWaiting = false ∨
        t.runState = .waitPause ∧ s.env.now.pause = true ∧ t.intWaiting = s.env.now.intreq) ∧
      (s.env.now.resetAfter = 0 →
        (¬ (s.runState = .waitPause ∧ s.env.now.pause = true) → t.runState = .run ∧ memKept s t) ∧
        (s.runState = .waitPause ∧ s.env.now.pause = true → t.runState = .waitPause ∧ memKept s t ∧
          (plainAt s 0 → t.ir = s.peek 0) ∧
          (unforced t → step t = if s.env.now.intreq then endStep (.next (interruptEntry t))
            else endStep (runDecoded 0 t.ir
              { t with iar := 1, runState := .run, intWaiting := t.env.now.intreq, fetchedAhead := true }))))

/-- The machine after RESET: IAR 0, II 0, no interrupt waiting, RUN; its memory is in the canonical form of log entry 3 (10_state.md R49; what the other registers hold is the model's choice, log entry 1, and not stated here). -/
def Obligations.ResetValues : Prop :=
  State.reset.iar = 0 ∧ State.reset.ii = false ∧ State.reset.intWaiting = false ∧ State.reset.runState = .run ∧
    runPin State.reset = true ∧ canonical State.reset

/-- A pause is invisible to a program: entering a PAUSE wait fetches byte 0 of the next instruction and changes no register, no PSW bit, no stack entry and no byte of memory; and when, with no request waiting and no DMA, it is released, the instruction at IAR runs just as it would have, also with a request that first appears at the release (60_exceptions.md R355, R377; that the interrupt-waiting latch remembers the request of the boundary where the pause began, decides at the release and is then as INTREQ is, is log entry 9, DEDUCED; the memory read is plain: a first byte in a device or at an empty address is not in this statement). -/
def Obligations.PauseIsInvisible : Prop :=
  ∀ s : State, s.runState = .run → s.env.now.reset = false → s.env.now.pause = true → plainAt s s.iar →
    ∃ t, step s = .next t ∧ t.runState = .waitPause ∧ runPin t = false ∧ regsKept s t ∧ t.psl = s.psl ∧ psuKept s t ∧
      t.ras = s.ras ∧ t.iar = s.iar ∧ t.ir = s.peek s.iar ∧ memKept s t ∧
      (∀ e : Env, unforced { t with env := e } → e.platform = s.env.platform → (t.intWaiting && !t.ii) = false →
        step { t with env := e } = endStep (runInstr { s with env := e, intWaiting := e.now.intreq }))

/-- An INTREQ seen with PAUSE at a boundary is entered first thing after release: the request is noted as the wait is entered, stays noted in every step in which PAUSE holds the wait, with or without DMA, and on release, whenever it comes, the step is the entry, with the address of the instruction that waits pushed. One that first appears during the wait is entered after the next instruction: on release the instruction whose first byte is held runs, and the step after that, if the request still stands, II is 0 and neither RESET nor PAUSE is driven, is the entry (60_exceptions.md R355; that the latch tells the two cases apart is log entry 9, DEDUCED; the marks of the byte fetched ahead and DMA are log entries 11 and 12). -/
def Obligations.InterruptAndPause : Prop :=
  (∀ s : State, s.runState = .run → s.env.now.reset = false → s.env.now.pause = true → s.ii = false →
    s.env.now.intreq = true → ∃ t, step s = .next t ∧ t.runState = .waitPause ∧ t.iar = s.iar ∧
      t.intWaiting = true ∧ t.ii = false ∧ t.sp = s.sp ∧ t.ras = s.ras ∧
      (unforced t → ∃ u, step t = .next u ∧ u.ii = true ∧ pushed s.iar s u ∧ u.runState = .run)) ∧
  (∀ s : State, s.runState = .waitPause → s.intWaiting = true → s.ii = false → s.env.now.reset = false →
    (s.env.now.pause = true → ∃ t, step s = .next t ∧ t.runState = .waitPause ∧ t.iar = s.iar ∧
      t.intWaiting = true ∧ t.ii = false ∧ t.sp = s.sp ∧ t.ras = s.ras) ∧
    (s.env.now.pause = false → ∃ u, step s = .next u ∧ u.ii = true ∧ u.intWaiting = false ∧ pushed s.iar s u ∧
      u.runState = .run ∧ regsKept s u ∧ u.psl = s.psl ∧ u.flag = s.flag ∧ memKept s u)) ∧
  (∀ s : State, s.runState = .waitPause → s.intWaiting = false → unforced s →
    step s = endStep (runDecoded s.iar s.ir
      { s with iar := nextInPage s.iar, runState := .run, intWaiting := s.env.now.intreq, fetchedAhead := true }) ∧
    ∀ t, step s = .next t → unforced t → t.env.now.intreq = true → t.ii = false → t.runState ≠ .waitPause →
      ∃ u, step t = .next u ∧ u.ii = true ∧ pushed t.iar t u ∧ u.runState = .run)

/-- While PAUSE holds the wait, the DMA writes of a step, any number of them, reach RAM in their order and nothing else; the first byte of the next instruction is the one already held, whatever was written over it; a remembered request, or its absence, is kept too (20_memory.md R76; 70_reset_and_hazards.md R400 (b); 60_exceptions.md R355; the interrupt-waiting latch is log entry 9, DEDUCED, the mark of the byte fetched ahead log entry 11; that DMA is a list of writes in the input, that they reach RAM only and are told to no device is the model's choice, log entry 12). -/
def Obligations.DmaDuringPauseKeepsTheHeldByte : Prop :=
  ∀ s : State, s.runState = .waitPause → s.env.now.reset = false → s.env.now.pause = true →
    ∃ t, step s = .next t ∧ t.runState = .waitPause ∧ t.ir = s.ir ∧ t.iar = s.iar ∧ regsKept s t ∧ t.psl = s.psl ∧
      psuKept s t ∧ t.ras = s.ras ∧ t.intWaiting = s.intWaiting ∧ t.fetchedAhead = s.fetchedAhead ∧
      t.env.ops = s.env.ops ∧ t.env.devices = s.env.devices ∧
      ∀ a, t.peek a = if s.env.kindAt a = .ram then (lastWritten a s.env.now.dma).getD (s.peek a) else s.peek a

/-- A program sees its own stores: after the step of a STRA or STRR that stores to the address of the next instruction, the next step, undisturbed, fetches the byte stored (20_memory.md R73; 70_reset_and_hazards.md R409; the spec's decision D17). -/
def Obligations.StoreIntoNextInstrIsSeen : Prop :=
  ∀ (s t : State) (m : MemForm), holdsAt s s.iar (encode (strOf m)) → s.runState = .run → unforced s →
    interruptAccepted s = false → step s = .next t →
    let u : State := { s with
      iar := forward s.iar (encode (strOf m)).length
      ir := (encode (strOf m)).headD 0
      intWaiting := s.env.now.intreq
      fetchedAhead := true }
    (m.ea u).1 = u.iar → s.env.kindAt u.iar = .ram →
      t.iar = u.iar ∧ (fetchByte t).1 = regNow m.reg (m.ea u).2

/-- RESET in the middle of a step that runs an instruction or enters an interrupt: the operations it had made on devices and ports are the first ones of the whole step, byte for byte, and no more; memory is as before the step unless the step had gone on past all of these operations, and then as after the whole step; IAR and II are 0 (70_reset_and_hazards.md R380; how far the step had come is a number in the input, the model's choice, log entry 25). -/
def Obligations.ResetAbandonsTheStep : Prop :=
  ∀ s u : State, s.env.now.reset = true → s.env.now.resetAfter ≠ 0 → s.runState ≠ .waitPause → s.env.now.pause = false →
    undisturbed s = .next u → ∃ t, step s = .next t ∧ t.iar = 0 ∧ t.ii = false ∧ t.runState = .run ∧
      u.env.ops = (newOps s u).reverse ++ s.env.ops ∧
      t.env.ops = ((newOps s u).take s.env.now.resetAfter).reverse ++ s.env.ops ∧
      (s.env.now.resetAfter ≤ (newOps s u).length → memKept s t) ∧
      ((newOps s u).length < s.env.now.resetAfter → memKept u t)
end

