-- ==== Sys2Proof/Laws/Encode.lean ====
section
/-! SUPPORT. What encoding then decoding one operand gives, and the other way round; what the decoder does with a first byte of known length. -/

namespace Sys2Proof

/-! Bit fields -/

theorem extract_high {n m : Nat} (a : BitVec n) (b : BitVec m) : (a ++ b).extractLsb' m n = a := by
  apply BitVec.eq_of_getLsbD_eq
  intro k hk
  rw [BitVec.getLsbD_extractLsb', BitVec.getLsbD_append]
  simp [hk]

theorem extract_low {n m : Nat} (a : BitVec n) (b : BitVec m) : (a ++ b).extractLsb' 0 m = b := by
  apply BitVec.eq_of_getLsbD_eq
  intro k hk
  rw [BitVec.getLsbD_extractLsb', BitVec.getLsbD_append]
  simp [hk]

theorem extract_join (n m : Nat) (d : BitVec (n + m)) : d.extractLsb' m n ++ d.extractLsb' 0 m = d := by
  apply BitVec.eq_of_getLsbD_eq
  intro k hk
  rw [BitVec.getLsbD_append]
  split
  · simp; omega
  · rename_i h
    have e : m + (k - m) = k := by omega
    simp [e]
    omega

/-! Operands: from the operand to its bytes and back -/

@[simp] theorem Reg.ofBits_toBits (r : Reg) : Reg.ofBits r.toBits = r := by cases r <;> rfl
@[simp] theorem Reg.toBits_ofBits (n : BitVec 2) : (Reg.ofBits n).toBits = n := by revert n; decide
@[simp] theorem IndexCtl.ofBits_toBits (c : IndexCtl) : IndexCtl.ofBits c.toBits = c := by cases c <;> rfl
@[simp] theorem IndexCtl.toBits_ofBits (n : BitVec 2) : (IndexCtl.ofBits n).toBits = n := by revert n; decide

theorem RelArg.ofByte_byte1 (a : RelArg) : RelArg.ofByte a.byte1 = a := by
  obtain ⟨i, d⟩ := a
  have h : ∀ (i : Bool) (d : BitVec 7), (BitVec.ofBool i ++ d : Byte).getLsbD 7 = i := by decide
  simp only [RelArg.ofByte, RelArg.byte1, h, extract_low (n := 1) (m := 7)]

theorem AbsArg.ofBytes_bytes (a : AbsArg) : AbsArg.ofBytes a.byte1 a.byte2 = a := by
  obtain ⟨i, c, d⟩ := a
  have h : ∀ (i : Bool) (c : BitVec 2) (h : BitVec 5), (BitVec.ofBool i ++ (c ++ h) : Byte).getLsbD 7 = i ∧
      (BitVec.ofBool i ++ (c ++ h) : Byte).extractLsb' 5 2 = c ∧
      (BitVec.ofBool i ++ (c ++ h) : Byte).extractLsb' 0 5 = h := by decide
  simp only [AbsArg.ofBytes, AbsArg.byte1, AbsArg.byte2, (h i _ _).1, (h i _ _).2.1, (h i _ _).2.2,
    IndexCtl.ofBits_toBits, extract_join 5 8 d]

theorem BrArg.ofBytes_bytes (a : BrArg) : BrArg.ofBytes a.byte1 a.byte2 = a := by
  obtain ⟨i, d⟩ := a
  have h : ∀ (i : Bool) (d : BitVec 7), (BitVec.ofBool i ++ d : Byte).getLsbD 7 = i := by decide
  simp only [BrArg.ofBytes, BrArg.byte1, BrArg.byte2, h, extract_low (n := 1) (m := 7), extract_join 7 8 d]

/-! Bytes: from the bytes to the operand and back -/

@[simp] theorem RelArg.byte1_ofByte (b : Byte) : (RelArg.ofByte b).byte1 = b := by revert b; decide

@[simp] theorem AbsArg.byte1_ofBytes (b c : Byte) : (AbsArg.ofBytes b c).byte1 = b := by
  simp only [AbsArg.ofBytes, AbsArg.byte1, extract_high (n := 5) (m := 8), IndexCtl.toBits_ofBits]
  revert b
  decide

@[simp] theorem AbsArg.byte2_ofBytes (b c : Byte) : (AbsArg.ofBytes b c).byte2 = c := extract_low (n := 5) (m := 8) _ _

@[simp] theorem BrArg.byte1_ofBytes (b c : Byte) : (BrArg.ofBytes b c).byte1 = b := by
  simp only [BrArg.ofBytes, BrArg.byte1, extract_high (n := 7) (m := 8)]
  revert b
  decide

@[simp] theorem BrArg.byte2_ofBytes (b c : Byte) : (BrArg.ofBytes b c).byte2 = c := extract_low (n := 7) (m := 8) _ _

/-! The decoder -/

/-- Decoding, when the first byte has a length, the bytes are there, and the bytes are an instruction (30_encoding.md R124). -/
theorem decode_cons {b0 : Byte} {rest : List Byte} {n : Nat} {i : Instr} (h1 : instrLength b0 = .ok n)
    (h2 : n ≤ rest.length + 1) (h3 : decodeBytes b0 (rest.getD 0 0) (rest.getD 1 0) = .ok i) :
    decode (b0 :: rest) = .ok (i, rest.drop (n - 1)) := by
  simp only [decode, h1, h3, if_neg (Nat.not_lt.2 h2)]

/-- Everything a successful decoding says: the first byte has a length, the bytes are there, and they are the instruction. -/
theorem decode_cons_eq_ok {b0 : Byte} {bs left : List Byte} {i : Instr} (h : decode (b0 :: bs) = .ok (i, left)) :
    ∃ n, instrLength b0 = .ok n ∧ n ≤ bs.length + 1 ∧ decodeBytes b0 (bs.getD 0 0) (bs.getD 1 0) = .ok i ∧
      left = bs.drop (n - 1) := by
  simp only [decode] at h
  split at h
  · cases h
  · rename_i n hn
    split at h
    · cases h
    · rename_i hl
      split at h
      · cases h
      · rename_i j hj
        cases h
        exact ⟨n, hn, Nat.not_lt.1 hl, hj, rfl⟩

/-- A first byte that has a length is one, two or three bytes long and begins an instruction, whatever bytes follow (30_encoding.md R124). -/
theorem decodeBytes_of_length {b0 : Byte} {n : Nat} (h : instrLength b0 = .ok n) :
    1 ≤ n ∧ n ≤ 3 ∧ ∀ b1 b2, ∃ i, decodeBytes b0 b1 b2 = .ok i := by
  obtain ⟨k⟩ := b0
  fin_cases k
  all_goals first
    | (cases h; done)
    | (cases h; exact ⟨by decide, by decide, fun _ _ => ⟨_, rfl⟩⟩)

/-- No instruction has more than three bytes (30_encoding.md R102). -/
theorem encode_length (i : Instr) : 1 ≤ (encode i).length ∧ (encode i).length ≤ 3 := by
  cases i <;> simp [encode]

end Sys2Proof
end

