-- ==== Sys2Proof/Laws/Memory.lean ====
section
/-! SUPPORT. Laws of memory as data: read after write, the canonical form, and that canonical memories which agree are equal data. -/

namespace Sys2Proof.Machine

/-- Read after write. -/
theorem Memory.find_put (m : Memory) (a b : Nat) (v : Byte) :
    Memory.find (Memory.put m a v) b = if b = a then some v else Memory.find m b := by
  induction m with
  | nil => simp only [Memory.put, Memory.find]; split <;> split <;> simp_all
  | cons p t ih =>
    obtain ⟨k, w⟩ := p
    have comm : (a = b) = (b = a) := propext eq_comm
    simp only [Memory.put]
    split
    · simp only [Memory.find, comm]
    · split
      · rename_i hk
        subst hk
        by_cases c : k = b
        · subst c; simp [Memory.find]
        · simp [Memory.find, c, Ne.symm c]
      · rename_i hk
        simp only [Memory.find, ih]
        by_cases c : k = b
        · have : b ≠ a := fun e => hk (c.trans e)
          simp [c, this]
        · simp [c]

theorem Memory.risingFrom_mono {lo lo' : Nat} {m : Memory} (h : lo' ≤ lo) (hm : Memory.risingFrom lo m = true) :
    Memory.risingFrom lo' m = true := by
  cases m with
  | nil => rfl
  | cons p t => simp only [Memory.risingFrom, Bool.and_eq_true, decide_eq_true_eq] at *; exact ⟨by omega, hm.2⟩

/-- A store keeps the canonical form. -/
theorem Memory.risingFrom_put {lo : Nat} {m : Memory} {a : Nat} (v : Byte) (hl : lo ≤ a) (ha : a < 32768)
    (hm : Memory.risingFrom lo m = true) : Memory.risingFrom lo (Memory.put m a v) = true := by
  induction m generalizing lo with
  | nil => simp [Memory.put, Memory.risingFrom, hl, ha]
  | cons p t ih =>
    obtain ⟨k, w⟩ := p
    simp only [Memory.risingFrom, Bool.and_eq_true, decide_eq_true_eq] at hm
    obtain ⟨h1, h2, h3⟩ := hm
    simp only [Memory.put]
    split
    · simp only [Memory.risingFrom, Bool.and_eq_true, decide_eq_true_eq]
      exact ⟨hl, ha, by omega, h2, h3⟩
    · split
      · simp only [Memory.risingFrom, Bool.and_eq_true, decide_eq_true_eq]; exact ⟨h1, h2, h3⟩
      · simp only [Memory.risingFrom, Bool.and_eq_true, decide_eq_true_eq]
        exact ⟨h1, h2, ih (by omega) h3⟩

theorem Memory.wf_put {m : Memory} (a : Addr) (v : Byte) (hm : Memory.wf m = true) :
    Memory.wf (Memory.put m a.toNat v) = true :=
  Memory.risingFrom_put v (Nat.zero_le _) a.isLt hm

theorem Memory.find_of_lt {lo a : Nat} {m : Memory} (h : a < lo) (hm : Memory.risingFrom lo m = true) :
    Memory.find m a = none := by
  induction m generalizing lo with
  | nil => rfl
  | cons p t ih =>
    obtain ⟨k, w⟩ := p
    simp only [Memory.risingFrom, Bool.and_eq_true, decide_eq_true_eq] at hm
    have : k ≠ a := by omega
    simp only [Memory.find, this, if_false]
    exact ih (by omega) hm.2.2

/-- Canonical memories in which every address has the same byte stored, or none, are equal data. -/
theorem Memory.eq_of_find {lo : Nat} {m n : Memory} (hm : Memory.risingFrom lo m = true)
    (hn : Memory.risingFrom lo n = true) (h : ∀ a, Memory.find m a = Memory.find n a) : m = n := by
  induction m generalizing lo n with
  | nil =>
    cases n with
    | nil => rfl
    | cons q u => have := h q.1; simp [Memory.find] at this
  | cons p t ih =>
    cases n with
    | nil => have := h p.1; simp [Memory.find] at this
    | cons q u =>
      obtain ⟨k, w⟩ := p
      obtain ⟨l, x⟩ := q
      simp only [Memory.risingFrom, Bool.and_eq_true, decide_eq_true_eq] at hm hn
      have hkl : k = l := by
        rcases Nat.lt_trichotomy k l with c | c | c
        · have e := h k
          rw [Memory.find_of_lt (m := (l, x) :: u) (lo := l) c
            (by simp only [Memory.risingFrom, Bool.and_eq_true, decide_eq_true_eq]; exact ⟨Nat.le_refl _, hn.2⟩)] at e
          simp [Memory.find] at e
        · exact c
        · have e := h l
          rw [Memory.find_of_lt (m := (k, w) :: t) (lo := k) c
            (by simp only [Memory.risingFrom, Bool.and_eq_true, decide_eq_true_eq]; exact ⟨Nat.le_refl _, hm.2⟩)] at e
          simp [Memory.find] at e
      subst hkl
      have hwx : w = x := by have e := h k; simpa [Memory.find] using e
      subst hwx
      congr 1
      refine ih hm.2.2 hn.2.2 fun a => ?_
      by_cases c : k = a
      · subst c; rw [Memory.find_of_lt (Nat.lt_succ_self _) hm.2.2, Memory.find_of_lt (Nat.lt_succ_self _) hn.2.2]
      · have e := h a; simpa [Memory.find, c] using e

theorem storedByte_put (m : Memory) (a b : Addr) (v : Byte) :
    storedByte (Memory.put m a.toNat v) b = if b = a then v else storedByte m b := by
  simp only [storedByte, Memory.find_put, BitVec.toNat_inj]
  split <;> simp

@[simp] theorem peek_put (s : State) (a b : Addr) (v : Byte) :
    State.peek { s with mem := Memory.put s.mem a.toNat v } b = if b = a then v else s.peek b :=
  storedByte_put s.mem a b v

end Sys2Proof.Machine
end

