-- ==== Sys2Proof/Laws/Flags.lean ====
section
/-! SUPPORT. Laws of the PSL fields and of the flag computations. -/

namespace Sys2Proof

open Sys2Proof.Machine

/-! Fields of the PSL -/

theorem byte_ext {x y : Byte} (h : ∀ k, k < 8 → x.getLsbD k = y.getLsbD k) : x = y :=
  BitVec.eq_of_getLsbD_eq h

theorem ccOf_eq_append (p : Byte) : ccOf p = BitVec.ofBool (p.getLsbD 7) ++ BitVec.ofBool (p.getLsbD 6) := by
  revert p; unfold ccOf; decide +revert

@[simp] theorem ccOf_packPsl (cc : BitVec 2) (idc rs wc ovf com c : Bool) :
    ccOf (packPsl cc idc rs wc ovf com c) = cc := by
  revert cc idc rs wc ovf com c; decide

@[simp] theorem idcOf_packPsl (cc : BitVec 2) (idc rs wc ovf com c : Bool) :
    idcOf (packPsl cc idc rs wc ovf com c) = idc := by
  revert cc idc rs wc ovf com c; decide

@[simp] theorem rsOf_packPsl (cc : BitVec 2) (idc rs wc ovf com c : Bool) :
    rsOf (packPsl cc idc rs wc ovf com c) = rs := by
  revert cc idc rs wc ovf com c; decide

@[simp] theorem wcOf_packPsl (cc : BitVec 2) (idc rs wc ovf com c : Bool) :
    wcOf (packPsl cc idc rs wc ovf com c) = wc := by
  revert cc idc rs wc ovf com c; decide

@[simp] theorem ovfOf_packPsl (cc : BitVec 2) (idc rs wc ovf com c : Bool) :
    ovfOf (packPsl cc idc rs wc ovf com c) = ovf := by
  revert cc idc rs wc ovf com c; decide

@[simp] theorem comOf_packPsl (cc : BitVec 2) (idc rs wc ovf com c : Bool) :
    comOf (packPsl cc idc rs wc ovf com c) = com := by
  revert cc idc rs wc ovf com c; decide

@[simp] theorem cOf_packPsl (cc : BitVec 2) (idc rs wc ovf com c : Bool) :
    cOf (packPsl cc idc rs wc ovf com c) = c := by
  revert cc idc rs wc ovf com c; decide

/-- The PSL is its seven fields. -/
theorem packPsl_fields (p : Byte) :
    packPsl (ccOf p) (idcOf p) (rsOf p) (wcOf p) (ovfOf p) (comOf p) (cOf p) = p := by
  revert p; decide

@[simp] theorem ccOf_withCC (p : Byte) (cc : BitVec 2) : ccOf (withCC p cc) = cc := by simp [withCC]
@[simp] theorem idcOf_withCC (p : Byte) (cc : BitVec 2) : idcOf (withCC p cc) = idcOf p := by simp [withCC]
@[simp] theorem rsOf_withCC (p : Byte) (cc : BitVec 2) : rsOf (withCC p cc) = rsOf p := by simp [withCC]
@[simp] theorem wcOf_withCC (p : Byte) (cc : BitVec 2) : wcOf (withCC p cc) = wcOf p := by simp [withCC]
@[simp] theorem ovfOf_withCC (p : Byte) (cc : BitVec 2) : ovfOf (withCC p cc) = ovfOf p := by simp [withCC]
@[simp] theorem comOf_withCC (p : Byte) (cc : BitVec 2) : comOf (withCC p cc) = comOf p := by simp [withCC]
@[simp] theorem cOf_withCC (p : Byte) (cc : BitVec 2) : cOf (withCC p cc) = cOf p := by simp [withCC]

@[simp] theorem ccOf_withArith (p : Byte) (cc : BitVec 2) (i o c : Bool) : ccOf (withArith p cc i o c) = cc := by simp [withArith]
@[simp] theorem idcOf_withArith (p : Byte) (cc : BitVec 2) (i o c : Bool) : idcOf (withArith p cc i o c) = i := by simp [withArith]
@[simp] theorem rsOf_withArith (p : Byte) (cc : BitVec 2) (i o c : Bool) : rsOf (withArith p cc i o c) = rsOf p := by simp [withArith]
@[simp] theorem wcOf_withArith (p : Byte) (cc : BitVec 2) (i o c : Bool) : wcOf (withArith p cc i o c) = wcOf p := by simp [withArith]
@[simp] theorem ovfOf_withArith (p : Byte) (cc : BitVec 2) (i o c : Bool) : ovfOf (withArith p cc i o c) = o := by simp [withArith]
@[simp] theorem comOf_withArith (p : Byte) (cc : BitVec 2) (i o c : Bool) : comOf (withArith p cc i o c) = comOf p := by simp [withArith]
@[simp] theorem cOf_withArith (p : Byte) (cc : BitVec 2) (i o c : Bool) : cOf (withArith p cc i o c) = c := by simp [withArith]

theorem onlyCC_withCC (p : Byte) (cc : BitVec 2) : onlyCC p (withCC p cc) := by simp [onlyCC]

theorem controlKept_withArith (p : Byte) (cc : BitVec 2) (i o c : Bool) :
    controlKept p (withArith p cc i o c) := by simp [controlKept]

theorem controlKept_withCC (p : Byte) (cc : BitVec 2) : controlKept p (withCC p cc) := by simp [controlKept]

theorem onlyCC.controlKept {p q : Byte} (h : onlyCC p q) : controlKept p q := ⟨h.2.1, h.2.2.1, h.2.2.2.2.1⟩

/-! The condition code of a result -/

/-- The sign the condition code tells is that of the two's complement number. -/
theorem signCC_eq_ccMeaning (v : Byte) : signCC v = ccMeaning v := by
  revert v; decide

theorem signCC_ne_three (v : Byte) : signCC v ≠ 3 := by
  unfold signCC; split <;> (try split) <;> decide

@[simp] theorem ccOf_setCC (p v : Byte) : ccOf (setCC p v) = ccMeaning v := by
  simp [setCC, signCC_eq_ccMeaning]

@[simp] theorem rsOf_setCC (p v : Byte) : rsOf (setCC p v) = rsOf p := by simp [setCC]

theorem onlyCC_setCC (p v : Byte) : onlyCC p (setCC p v) := onlyCC_withCC p _

/-! The adder -/

theorem sum9_toNat (a b : Byte) (c : Bool) : (sum9 a b c).toNat = a.toNat + b.toNat + bitNat c := by
  have ha := a.isLt
  have hb := b.isLt
  cases c <;> simp [sum9, bitNat, BitVec.toNat_add, BitVec.toNat_setWidth] <;> omega

theorem sum9_low_toNat (a b : Byte) (c : Bool) :
    ((sum9 a b c).extractLsb' 0 8 : Byte).toNat = (a.toNat + b.toNat + bitNat c) % 256 := by
  simp [BitVec.extractLsb'_toNat, sum9_toNat]

theorem sum9_carry (a b : Byte) (c : Bool) :
    (sum9 a b c).getLsbD 8 = decide (256 ≤ a.toNat + b.toNat + bitNat c) := by
  have h : (sum9 a b c).getLsbD 8 = (sum9 a b c).msb := by simp [BitVec.msb_eq_getLsbD_last]
  rw [h, BitVec.msb_eq_decide, sum9_toNat]

theorem halfCarry_eq (a b : Byte) (c : Bool) :
    halfCarry a b c = decide (16 ≤ a.toNat % 16 + b.toNat % 16 + bitNat c) := by
  have h : c.toNat = bitNat c := by cases c <;> rfl
  simp only [halfCarry, BitVec.extractLsb'_toNat, h, decide_eq_decide]
  simp
  omega

/-- Everything an add computes (41_arithmetic.md R160). -/
theorem add8_spec (p a b : Byte) :
    (add8 p a b).1.toNat = (a.toNat + b.toNat + bitNat (wcOf p && cOf p)) % 256 ∧
    (add8 p a b).2 = withArith p (ccMeaning (add8 p a b).1)
      (decide (16 ≤ a.toNat % 16 + b.toNat % 16 + bitNat (wcOf p && cOf p)))
      (decide (a.msb = b.msb ∧ (add8 p a b).1.msb ≠ a.msb))
      (decide (256 ≤ a.toNat + b.toNat + bitNat (wcOf p && cOf p))) := by
  refine ⟨?_, ?_⟩
  · simp only [add8, addCarryIn]; exact sum9_low_toNat a b _
  · simp only [add8, addCarryIn, signCC_eq_ccMeaning, halfCarry_eq, sum9_carry]
    congr 1
    generalize BitVec.msb _ = x
    generalize BitVec.msb _ = y
    generalize BitVec.msb _ = z
    revert x y z; decide

/-- Everything a subtract computes (41_arithmetic.md R161). -/
theorem sub8_spec (p a b : Byte) :
    ((sub8 p a b).1.toNat : Int) = ((a.toNat : Int) - b.toNat - bitNat (wcOf p && !cOf p)) % 256 ∧
    (sub8 p a b).2 = withArith p (ccMeaning (sub8 p a b).1)
      (decide (b.toNat % 16 + bitNat (wcOf p && !cOf p) ≤ a.toNat % 16))
      (decide (a.msb ≠ b.msb ∧ (sub8 p a b).1.msb ≠ a.msb))
      (decide (b.toNat + bitNat (wcOf p && !cOf p) ≤ a.toNat)) := by
  have hb := b.isLt
  have ha := a.isLt
  have hn : (~~~b).toNat = 255 - b.toNat := by simp [BitVec.toNat_not]
  have hc : bitNat (!wcOf p || cOf p) + bitNat (wcOf p && !cOf p) = 1 := by
    cases wcOf p <;> cases cOf p <;> rfl
  refine ⟨?_, ?_⟩
  · simp only [sub8, subCarryIn]
    rw [sum9_low_toNat, hn]
    omega
  · simp only [sub8, subCarryIn, signCC_eq_ccMeaning, halfCarry_eq, sum9_carry, hn]
    congr 1
    · rw [decide_eq_decide]; omega
    · generalize BitVec.msb _ = x
      generalize BitVec.msb _ = y
      generalize BitVec.msb _ = z
      revert x y z; decide
    · rw [decide_eq_decide]; omega

/-! Compare -/

/-- The condition code of a compare is the exact order of the two numbers (43_compare.md R200). -/
theorem compareCC_eq (p a b : Byte) :
    compareCC p a b = if comOf p then ccOrder a.toNat b.toNat else ccOrder a.toInt b.toInt := by
  unfold compareCC ccOrder
  by_cases h : a = b
  · subst h; cases comOf p <;> simp
  · have h1 : a.toNat ≠ b.toNat := fun e => h (BitVec.eq_of_toNat_eq e)
    have h2 : a.toInt ≠ b.toInt := fun e => h (BitVec.eq_of_toInt_eq e)
    cases comOf p
    · simp only [h, BitVec.slt_eq_decide, h2, if_false, Bool.false_eq_true, decide_eq_true_eq]
    · have h3 : (a.toNat : Int) ≠ b.toNat := by omega
      simp only [h, BitVec.ult_eq_decide, if_false, if_true, decide_eq_true_eq, h3, Nat.cast_lt]

theorem ccOrder_ne_three (a b : Int) : ccOrder a b ≠ 3 := by
  unfold ccOrder; split <;> (try split) <;> decide

theorem compareCC_ne_three (p a b : Byte) : compareCC p a b ≠ 3 := by
  rw [compareCC_eq]; split <;> exact ccOrder_ne_three _ _

/-! Bit tests -/

theorem testCC_ne_three (x m : Byte) : testCC x m ≠ 3 := by
  unfold testCC; split <;> decide

theorem testCC_all {x m : Byte} (h : ∀ k, k < 8 → m.getLsbD k = true → x.getLsbD k = true) : testCC x m = 0 := by
  have : x &&& m = m := byte_ext fun k hk => by
    have := h k hk
    rw [BitVec.getLsbD_and]
    cases hm : m.getLsbD k <;> simp_all
  simp [testCC, this]

theorem testCC_some {x m : Byte} {k : Nat} (hm : m.getLsbD k = true) (hx : x.getLsbD k = false) : testCC x m = 2 := by
  have : x &&& m ≠ m := fun e => by
    have := congrArg (fun y : Byte => y.getLsbD k) e
    simp [hm, hx] at this
  simp [testCC, this]

/-! Rotates -/

theorem rotateLeft8_bits (p v : Byte) :
    (∀ k, k < 7 → (rotateLeft8 p v).1.getLsbD (k + 1) = v.getLsbD k) ∧
    (rotateLeft8 p v).1.getLsbD 0 = (if wcOf p then cOf p else v.getLsbD 7) := by
  have key : ∀ (c : Bool) (v : Byte), (∀ k, k < 7 → (v <<< 1 ||| (BitVec.ofBool c).setWidth 8).getLsbD (k + 1) = v.getLsbD k) ∧
      (v <<< 1 ||| (BitVec.ofBool c).setWidth 8).getLsbD 0 = c := by decide
  exact key _ v

theorem rotateRight8_bits (p v : Byte) :
    (∀ k, k < 7 → (rotateRight8 p v).1.getLsbD k = v.getLsbD (k + 1)) ∧
    (rotateRight8 p v).1.getLsbD 7 = (if wcOf p then cOf p else v.getLsbD 0) := by
  have key : ∀ (c : Bool) (v : Byte), (∀ k, k < 7 → (v >>> 1 ||| ((BitVec.ofBool c).setWidth 8 <<< 7)).getLsbD k = v.getLsbD (k + 1)) ∧
      (v >>> 1 ||| ((BitVec.ofBool c).setWidth 8 <<< 7)).getLsbD 7 = c := by decide
  exact key _ v

/-- The PSL a rotate leaves (44_rotate.md R210). -/
theorem rotatePsl_spec (p v res : Byte) (cout : Bool) :
    rotatePsl p v res cout =
      if wcOf p then withArith p (ccMeaning res) (res.getLsbD 5) (res.msb != v.msb) cout else withCC p (ccMeaning res) := by
  simp [rotatePsl, signCC_eq_ccMeaning]

/-! Decimal adjust -/

theorem decimalAdjust_digits (p v : Byte) :
    (decimalAdjust p v).toNat / 16 = (v.toNat / 16 + (if cOf p then 0 else 10)) % 16 ∧
    (decimalAdjust p v).toNat % 16 = (v.toNat % 16 + (if idcOf p then 0 else 10)) % 16 := by
  unfold decimalAdjust
  generalize cOf p = c
  generalize idcOf p = d
  revert c d v
  decide

end Sys2Proof
end

