-- ==== Sys2Proof/Laws/State.lean ====
section
/-! SUPPORT. One lemma per field per update of State, true by rfl. -/

namespace Sys2Proof.Machine

/-! `putCC` -/

@[simp] theorem putCC_r0 (cc : BitVec 2) (s : State) : (putCC cc s).r0 = s.r0 := rfl
@[simp] theorem putCC_bank0 (cc : BitVec 2) (s : State) : (putCC cc s).bank0 = s.bank0 := rfl
@[simp] theorem putCC_bank1 (cc : BitVec 2) (s : State) : (putCC cc s).bank1 = s.bank1 := rfl
@[simp] theorem putCC_iar (cc : BitVec 2) (s : State) : (putCC cc s).iar = s.iar := rfl
@[simp] theorem putCC_flag (cc : BitVec 2) (s : State) : (putCC cc s).flag = s.flag := rfl
@[simp] theorem putCC_ii (cc : BitVec 2) (s : State) : (putCC cc s).ii = s.ii := rfl
@[simp] theorem putCC_sp (cc : BitVec 2) (s : State) : (putCC cc s).sp = s.sp := rfl
@[simp] theorem putCC_psl (cc : BitVec 2) (s : State) : (putCC cc s).psl = withCC s.psl cc := rfl
@[simp] theorem putCC_ras (cc : BitVec 2) (s : State) : (putCC cc s).ras = s.ras := rfl
@[simp] theorem putCC_intWaiting (cc : BitVec 2) (s : State) : (putCC cc s).intWaiting = s.intWaiting := rfl
@[simp] theorem putCC_runState (cc : BitVec 2) (s : State) : (putCC cc s).runState = s.runState := rfl
@[simp] theorem putCC_ir (cc : BitVec 2) (s : State) : (putCC cc s).ir = s.ir := rfl
@[simp] theorem putCC_fetchedAhead (cc : BitVec 2) (s : State) : (putCC cc s).fetchedAhead = s.fetchedAhead := rfl
@[simp] theorem putCC_mem (cc : BitVec 2) (s : State) : (putCC cc s).mem = s.mem := rfl
@[simp] theorem putCC_env (cc : BitVec 2) (s : State) : (putCC cc s).env = s.env := rfl

/-! `psuWrite` -/

@[simp] theorem psuWrite_r0 (x : Byte) (s : State) : (psuWrite x s).r0 = s.r0 := rfl
@[simp] theorem psuWrite_bank0 (x : Byte) (s : State) : (psuWrite x s).bank0 = s.bank0 := rfl
@[simp] theorem psuWrite_bank1 (x : Byte) (s : State) : (psuWrite x s).bank1 = s.bank1 := rfl
@[simp] theorem psuWrite_iar (x : Byte) (s : State) : (psuWrite x s).iar = s.iar := rfl
@[simp] theorem psuWrite_flag (x : Byte) (s : State) : (psuWrite x s).flag = x.getLsbD 6 := rfl
@[simp] theorem psuWrite_ii (x : Byte) (s : State) : (psuWrite x s).ii = x.getLsbD 5 := rfl
@[simp] theorem psuWrite_sp (x : Byte) (s : State) : (psuWrite x s).sp = x.extractLsb' 0 3 := rfl
@[simp] theorem psuWrite_psl (x : Byte) (s : State) : (psuWrite x s).psl = s.psl := rfl
@[simp] theorem psuWrite_ras (x : Byte) (s : State) : (psuWrite x s).ras = s.ras := rfl
@[simp] theorem psuWrite_intWaiting (x : Byte) (s : State) : (psuWrite x s).intWaiting = s.intWaiting := rfl
@[simp] theorem psuWrite_runState (x : Byte) (s : State) : (psuWrite x s).runState = s.runState := rfl
@[simp] theorem psuWrite_ir (x : Byte) (s : State) : (psuWrite x s).ir = s.ir := rfl
@[simp] theorem psuWrite_fetchedAhead (x : Byte) (s : State) : (psuWrite x s).fetchedAhead = s.fetchedAhead := rfl
@[simp] theorem psuWrite_mem (x : Byte) (s : State) : (psuWrite x s).mem = s.mem := rfl
@[simp] theorem psuWrite_env (x : Byte) (s : State) : (psuWrite x s).env = s.env := rfl

/-! `record` -/

@[simp] theorem record_r0 (op : BusOp) (s : State) : (record op s).r0 = s.r0 := rfl
@[simp] theorem record_bank0 (op : BusOp) (s : State) : (record op s).bank0 = s.bank0 := rfl
@[simp] theorem record_bank1 (op : BusOp) (s : State) : (record op s).bank1 = s.bank1 := rfl
@[simp] theorem record_iar (op : BusOp) (s : State) : (record op s).iar = s.iar := rfl
@[simp] theorem record_flag (op : BusOp) (s : State) : (record op s).flag = s.flag := rfl
@[simp] theorem record_ii (op : BusOp) (s : State) : (record op s).ii = s.ii := rfl
@[simp] theorem record_sp (op : BusOp) (s : State) : (record op s).sp = s.sp := rfl
@[simp] theorem record_psl (op : BusOp) (s : State) : (record op s).psl = s.psl := rfl
@[simp] theorem record_ras (op : BusOp) (s : State) : (record op s).ras = s.ras := rfl
@[simp] theorem record_intWaiting (op : BusOp) (s : State) : (record op s).intWaiting = s.intWaiting := rfl
@[simp] theorem record_runState (op : BusOp) (s : State) : (record op s).runState = s.runState := rfl
@[simp] theorem record_ir (op : BusOp) (s : State) : (record op s).ir = s.ir := rfl
@[simp] theorem record_fetchedAhead (op : BusOp) (s : State) : (record op s).fetchedAhead = s.fetchedAhead := rfl
@[simp] theorem record_mem (op : BusOp) (s : State) : (record op s).mem = s.mem := rfl
@[simp] theorem record_env (op : BusOp) (s : State) : (record op s).env = { s.env with ops := op :: s.env.ops } := rfl

/-! `portWrite` -/

@[simp] theorem portWrite_r0 (p : Port) (v : Byte) (s : State) : (portWrite p v s).r0 = s.r0 := rfl
@[simp] theorem portWrite_bank0 (p : Port) (v : Byte) (s : State) : (portWrite p v s).bank0 = s.bank0 := rfl
@[simp] theorem portWrite_bank1 (p : Port) (v : Byte) (s : State) : (portWrite p v s).bank1 = s.bank1 := rfl
@[simp] theorem portWrite_iar (p : Port) (v : Byte) (s : State) : (portWrite p v s).iar = s.iar := rfl
@[simp] theorem portWrite_flag (p : Port) (v : Byte) (s : State) : (portWrite p v s).flag = s.flag := rfl
@[simp] theorem portWrite_ii (p : Port) (v : Byte) (s : State) : (portWrite p v s).ii = s.ii := rfl
@[simp] theorem portWrite_sp (p : Port) (v : Byte) (s : State) : (portWrite p v s).sp = s.sp := rfl
@[simp] theorem portWrite_psl (p : Port) (v : Byte) (s : State) : (portWrite p v s).psl = s.psl := rfl
@[simp] theorem portWrite_ras (p : Port) (v : Byte) (s : State) : (portWrite p v s).ras = s.ras := rfl
@[simp] theorem portWrite_intWaiting (p : Port) (v : Byte) (s : State) : (portWrite p v s).intWaiting = s.intWaiting := rfl
@[simp] theorem portWrite_runState (p : Port) (v : Byte) (s : State) : (portWrite p v s).runState = s.runState := rfl
@[simp] theorem portWrite_ir (p : Port) (v : Byte) (s : State) : (portWrite p v s).ir = s.ir := rfl
@[simp] theorem portWrite_fetchedAhead (p : Port) (v : Byte) (s : State) : (portWrite p v s).fetchedAhead = s.fetchedAhead := rfl
@[simp] theorem portWrite_mem (p : Port) (v : Byte) (s : State) : (portWrite p v s).mem = s.mem := rfl
@[simp] theorem portWrite_env (p : Port) (v : Byte) (s : State) : (portWrite p v s).env = { s.env with ops := .portWrite p v :: s.env.ops } := rfl

/-! `extWrite` -/

@[simp] theorem extWrite_r0 (d v : Byte) (s : State) : (extWrite d v s).r0 = s.r0 := rfl
@[simp] theorem extWrite_bank0 (d v : Byte) (s : State) : (extWrite d v s).bank0 = s.bank0 := rfl
@[simp] theorem extWrite_bank1 (d v : Byte) (s : State) : (extWrite d v s).bank1 = s.bank1 := rfl
@[simp] theorem extWrite_iar (d v : Byte) (s : State) : (extWrite d v s).iar = s.iar := rfl
@[simp] theorem extWrite_flag (d v : Byte) (s : State) : (extWrite d v s).flag = s.flag := rfl
@[simp] theorem extWrite_ii (d v : Byte) (s : State) : (extWrite d v s).ii = s.ii := rfl
@[simp] theorem extWrite_sp (d v : Byte) (s : State) : (extWrite d v s).sp = s.sp := rfl
@[simp] theorem extWrite_psl (d v : Byte) (s : State) : (extWrite d v s).psl = s.psl := rfl
@[simp] theorem extWrite_ras (d v : Byte) (s : State) : (extWrite d v s).ras = s.ras := rfl
@[simp] theorem extWrite_intWaiting (d v : Byte) (s : State) : (extWrite d v s).intWaiting = s.intWaiting := rfl
@[simp] theorem extWrite_runState (d v : Byte) (s : State) : (extWrite d v s).runState = s.runState := rfl
@[simp] theorem extWrite_ir (d v : Byte) (s : State) : (extWrite d v s).ir = s.ir := rfl
@[simp] theorem extWrite_fetchedAhead (d v : Byte) (s : State) : (extWrite d v s).fetchedAhead = s.fetchedAhead := rfl
@[simp] theorem extWrite_mem (d v : Byte) (s : State) : (extWrite d v s).mem = s.mem := rfl
@[simp] theorem extWrite_env (d v : Byte) (s : State) : (extWrite d v s).env = { s.env with ops := .extWrite d v :: s.env.ops } := rfl

/-! `drawByte` -/

@[simp] theorem drawByte_r0 (s : State) : ((drawByte s).2).r0 = s.r0 := rfl
@[simp] theorem drawByte_bank0 (s : State) : ((drawByte s).2).bank0 = s.bank0 := rfl
@[simp] theorem drawByte_bank1 (s : State) : ((drawByte s).2).bank1 = s.bank1 := rfl
@[simp] theorem drawByte_iar (s : State) : ((drawByte s).2).iar = s.iar := rfl
@[simp] theorem drawByte_flag (s : State) : ((drawByte s).2).flag = s.flag := rfl
@[simp] theorem drawByte_ii (s : State) : ((drawByte s).2).ii = s.ii := rfl
@[simp] theorem drawByte_sp (s : State) : ((drawByte s).2).sp = s.sp := rfl
@[simp] theorem drawByte_psl (s : State) : ((drawByte s).2).psl = s.psl := rfl
@[simp] theorem drawByte_ras (s : State) : ((drawByte s).2).ras = s.ras := rfl
@[simp] theorem drawByte_intWaiting (s : State) : ((drawByte s).2).intWaiting = s.intWaiting := rfl
@[simp] theorem drawByte_runState (s : State) : ((drawByte s).2).runState = s.runState := rfl
@[simp] theorem drawByte_ir (s : State) : ((drawByte s).2).ir = s.ir := rfl
@[simp] theorem drawByte_fetchedAhead (s : State) : ((drawByte s).2).fetchedAhead = s.fetchedAhead := rfl
@[simp] theorem drawByte_mem (s : State) : ((drawByte s).2).mem = s.mem := rfl
@[simp] theorem drawByte_env (s : State) : ((drawByte s).2).env = { s.env with draws := s.env.draws + 1 } := rfl

/-! `loadReg` -/

@[simp] theorem loadReg_r0 (r : Reg) (v : Byte) (s : State) : (loadReg r v s).r0 = (writeReg r v s).r0 := rfl
@[simp] theorem loadReg_bank0 (r : Reg) (v : Byte) (s : State) : (loadReg r v s).bank0 = (writeReg r v s).bank0 := rfl
@[simp] theorem loadReg_bank1 (r : Reg) (v : Byte) (s : State) : (loadReg r v s).bank1 = (writeReg r v s).bank1 := rfl
@[simp] theorem loadReg_iar (r : Reg) (v : Byte) (s : State) : (loadReg r v s).iar = (writeReg r v s).iar := rfl
@[simp] theorem loadReg_flag (r : Reg) (v : Byte) (s : State) : (loadReg r v s).flag = (writeReg r v s).flag := rfl
@[simp] theorem loadReg_ii (r : Reg) (v : Byte) (s : State) : (loadReg r v s).ii = (writeReg r v s).ii := rfl
@[simp] theorem loadReg_sp (r : Reg) (v : Byte) (s : State) : (loadReg r v s).sp = (writeReg r v s).sp := rfl
@[simp] theorem loadReg_psl (r : Reg) (v : Byte) (s : State) : (loadReg r v s).psl = setCC s.psl v := rfl
@[simp] theorem loadReg_ras (r : Reg) (v : Byte) (s : State) : (loadReg r v s).ras = (writeReg r v s).ras := rfl
@[simp] theorem loadReg_intWaiting (r : Reg) (v : Byte) (s : State) : (loadReg r v s).intWaiting = (writeReg r v s).intWaiting := rfl
@[simp] theorem loadReg_runState (r : Reg) (v : Byte) (s : State) : (loadReg r v s).runState = (writeReg r v s).runState := rfl
@[simp] theorem loadReg_ir (r : Reg) (v : Byte) (s : State) : (loadReg r v s).ir = (writeReg r v s).ir := rfl
@[simp] theorem loadReg_fetchedAhead (r : Reg) (v : Byte) (s : State) : (loadReg r v s).fetchedAhead = (writeReg r v s).fetchedAhead := rfl
@[simp] theorem loadReg_mem (r : Reg) (v : Byte) (s : State) : (loadReg r v s).mem = (writeReg r v s).mem := rfl
@[simp] theorem loadReg_env (r : Reg) (v : Byte) (s : State) : (loadReg r v s).env = (writeReg r v s).env := rfl

/-! `putResult` -/

@[simp] theorem putResult_r0 (r : Reg) (p : Byte × Byte) (s : State) : (putResult r p s).r0 = (writeReg r p.1 s).r0 := rfl
@[simp] theorem putResult_bank0 (r : Reg) (p : Byte × Byte) (s : State) : (putResult r p s).bank0 = (writeReg r p.1 s).bank0 := rfl
@[simp] theorem putResult_bank1 (r : Reg) (p : Byte × Byte) (s : State) : (putResult r p s).bank1 = (writeReg r p.1 s).bank1 := rfl
@[simp] theorem putResult_iar (r : Reg) (p : Byte × Byte) (s : State) : (putResult r p s).iar = (writeReg r p.1 s).iar := rfl
@[simp] theorem putResult_flag (r : Reg) (p : Byte × Byte) (s : State) : (putResult r p s).flag = (writeReg r p.1 s).flag := rfl
@[simp] theorem putResult_ii (r : Reg) (p : Byte × Byte) (s : State) : (putResult r p s).ii = (writeReg r p.1 s).ii := rfl
@[simp] theorem putResult_sp (r : Reg) (p : Byte × Byte) (s : State) : (putResult r p s).sp = (writeReg r p.1 s).sp := rfl
@[simp] theorem putResult_psl (r : Reg) (p : Byte × Byte) (s : State) : (putResult r p s).psl = p.2 := rfl
@[simp] theorem putResult_ras (r : Reg) (p : Byte × Byte) (s : State) : (putResult r p s).ras = (writeReg r p.1 s).ras := rfl
@[simp] theorem putResult_intWaiting (r : Reg) (p : Byte × Byte) (s : State) : (putResult r p s).intWaiting = (writeReg r p.1 s).intWaiting := rfl
@[simp] theorem putResult_runState (r : Reg) (p : Byte × Byte) (s : State) : (putResult r p s).runState = (writeReg r p.1 s).runState := rfl
@[simp] theorem putResult_ir (r : Reg) (p : Byte × Byte) (s : State) : (putResult r p s).ir = (writeReg r p.1 s).ir := rfl
@[simp] theorem putResult_fetchedAhead (r : Reg) (p : Byte × Byte) (s : State) : (putResult r p s).fetchedAhead = (writeReg r p.1 s).fetchedAhead := rfl
@[simp] theorem putResult_mem (r : Reg) (p : Byte × Byte) (s : State) : (putResult r p s).mem = (writeReg r p.1 s).mem := rfl
@[simp] theorem putResult_env (r : Reg) (p : Byte × Byte) (s : State) : (putResult r p s).env = (writeReg r p.1 s).env := rfl

/-! `fetchByte` -/

@[simp] theorem fetchByte_r0 (s : State) : ((fetchByte s).2).r0 = ((memRead s.iar s).2).r0 := rfl
@[simp] theorem fetchByte_bank0 (s : State) : ((fetchByte s).2).bank0 = ((memRead s.iar s).2).bank0 := rfl
@[simp] theorem fetchByte_bank1 (s : State) : ((fetchByte s).2).bank1 = ((memRead s.iar s).2).bank1 := rfl
@[simp] theorem fetchByte_iar (s : State) : ((fetchByte s).2).iar = nextInPage s.iar := rfl
@[simp] theorem fetchByte_flag (s : State) : ((fetchByte s).2).flag = ((memRead s.iar s).2).flag := rfl
@[simp] theorem fetchByte_ii (s : State) : ((fetchByte s).2).ii = ((memRead s.iar s).2).ii := rfl
@[simp] theorem fetchByte_sp (s : State) : ((fetchByte s).2).sp = ((memRead s.iar s).2).sp := rfl
@[simp] theorem fetchByte_psl (s : State) : ((fetchByte s).2).psl = ((memRead s.iar s).2).psl := rfl
@[simp] theorem fetchByte_ras (s : State) : ((fetchByte s).2).ras = ((memRead s.iar s).2).ras := rfl
@[simp] theorem fetchByte_intWaiting (s : State) : ((fetchByte s).2).intWaiting = ((memRead s.iar s).2).intWaiting := rfl
@[simp] theorem fetchByte_runState (s : State) : ((fetchByte s).2).runState = ((memRead s.iar s).2).runState := rfl
@[simp] theorem fetchByte_ir (s : State) : ((fetchByte s).2).ir = ((memRead s.iar s).2).ir := rfl
@[simp] theorem fetchByte_fetchedAhead (s : State) : ((fetchByte s).2).fetchedAhead = ((memRead s.iar s).2).fetchedAhead := rfl
@[simp] theorem fetchByte_mem (s : State) : ((fetchByte s).2).mem = ((memRead s.iar s).2).mem := rfl
@[simp] theorem fetchByte_env (s : State) : ((fetchByte s).2).env = ((memRead s.iar s).2).env := rfl

/-! `goTo` -/

@[simp] theorem goTo_r0 (ea : Addr × State) : (goTo ea).r0 = ea.2.r0 := rfl
@[simp] theorem goTo_bank0 (ea : Addr × State) : (goTo ea).bank0 = ea.2.bank0 := rfl
@[simp] theorem goTo_bank1 (ea : Addr × State) : (goTo ea).bank1 = ea.2.bank1 := rfl
@[simp] theorem goTo_iar (ea : Addr × State) : (goTo ea).iar = ea.1 := rfl
@[simp] theorem goTo_flag (ea : Addr × State) : (goTo ea).flag = ea.2.flag := rfl
@[simp] theorem goTo_ii (ea : Addr × State) : (goTo ea).ii = ea.2.ii := rfl
@[simp] theorem goTo_sp (ea : Addr × State) : (goTo ea).sp = ea.2.sp := rfl
@[simp] theorem goTo_psl (ea : Addr × State) : (goTo ea).psl = ea.2.psl := rfl
@[simp] theorem goTo_ras (ea : Addr × State) : (goTo ea).ras = ea.2.ras := rfl
@[simp] theorem goTo_intWaiting (ea : Addr × State) : (goTo ea).intWaiting = ea.2.intWaiting := rfl
@[simp] theorem goTo_runState (ea : Addr × State) : (goTo ea).runState = ea.2.runState := rfl
@[simp] theorem goTo_ir (ea : Addr × State) : (goTo ea).ir = ea.2.ir := rfl
@[simp] theorem goTo_fetchedAhead (ea : Addr × State) : (goTo ea).fetchedAhead = ea.2.fetchedAhead := rfl
@[simp] theorem goTo_mem (ea : Addr × State) : (goTo ea).mem = ea.2.mem := rfl
@[simp] theorem goTo_env (ea : Addr × State) : (goTo ea).env = ea.2.env := rfl

/-! `pushAndBranch` -/

@[simp] theorem pushAndBranch_r0 (ea : Addr × State) : (pushAndBranch ea).r0 = ea.2.r0 := rfl
@[simp] theorem pushAndBranch_bank0 (ea : Addr × State) : (pushAndBranch ea).bank0 = ea.2.bank0 := rfl
@[simp] theorem pushAndBranch_bank1 (ea : Addr × State) : (pushAndBranch ea).bank1 = ea.2.bank1 := rfl
@[simp] theorem pushAndBranch_iar (ea : Addr × State) : (pushAndBranch ea).iar = ea.1 := rfl
@[simp] theorem pushAndBranch_flag (ea : Addr × State) : (pushAndBranch ea).flag = ea.2.flag := rfl
@[simp] theorem pushAndBranch_ii (ea : Addr × State) : (pushAndBranch ea).ii = ea.2.ii := rfl
@[simp] theorem pushAndBranch_sp (ea : Addr × State) : (pushAndBranch ea).sp = ea.2.sp + 1 := rfl
@[simp] theorem pushAndBranch_psl (ea : Addr × State) : (pushAndBranch ea).psl = ea.2.psl := rfl
@[simp] theorem pushAndBranch_ras (ea : Addr × State) : (pushAndBranch ea).ras = rasSet ea.2.ras (ea.2.sp + 1) ea.2.iar := rfl
@[simp] theorem pushAndBranch_intWaiting (ea : Addr × State) : (pushAndBranch ea).intWaiting = ea.2.intWaiting := rfl
@[simp] theorem pushAndBranch_runState (ea : Addr × State) : (pushAndBranch ea).runState = ea.2.runState := rfl
@[simp] theorem pushAndBranch_ir (ea : Addr × State) : (pushAndBranch ea).ir = ea.2.ir := rfl
@[simp] theorem pushAndBranch_fetchedAhead (ea : Addr × State) : (pushAndBranch ea).fetchedAhead = ea.2.fetchedAhead := rfl
@[simp] theorem pushAndBranch_mem (ea : Addr × State) : (pushAndBranch ea).mem = ea.2.mem := rfl
@[simp] theorem pushAndBranch_env (ea : Addr × State) : (pushAndBranch ea).env = ea.2.env := rfl

/-! `popAndReturn` -/

@[simp] theorem popAndReturn_r0 (s : State) : (popAndReturn s).r0 = s.r0 := rfl
@[simp] theorem popAndReturn_bank0 (s : State) : (popAndReturn s).bank0 = s.bank0 := rfl
@[simp] theorem popAndReturn_bank1 (s : State) : (popAndReturn s).bank1 = s.bank1 := rfl
@[simp] theorem popAndReturn_iar (s : State) : (popAndReturn s).iar = rasGet s.ras s.sp := rfl
@[simp] theorem popAndReturn_flag (s : State) : (popAndReturn s).flag = s.flag := rfl
@[simp] theorem popAndReturn_ii (s : State) : (popAndReturn s).ii = s.ii := rfl
@[simp] theorem popAndReturn_sp (s : State) : (popAndReturn s).sp = s.sp - 1 := rfl
@[simp] theorem popAndReturn_psl (s : State) : (popAndReturn s).psl = s.psl := rfl
@[simp] theorem popAndReturn_ras (s : State) : (popAndReturn s).ras = s.ras := rfl
@[simp] theorem popAndReturn_intWaiting (s : State) : (popAndReturn s).intWaiting = s.intWaiting := rfl
@[simp] theorem popAndReturn_runState (s : State) : (popAndReturn s).runState = s.runState := rfl
@[simp] theorem popAndReturn_ir (s : State) : (popAndReturn s).ir = s.ir := rfl
@[simp] theorem popAndReturn_fetchedAhead (s : State) : (popAndReturn s).fetchedAhead = s.fetchedAhead := rfl
@[simp] theorem popAndReturn_mem (s : State) : (popAndReturn s).mem = s.mem := rfl
@[simp] theorem popAndReturn_env (s : State) : (popAndReturn s).env = s.env := rfl

/-! `returnAndEnable` -/

@[simp] theorem returnAndEnable_r0 (s : State) : (returnAndEnable s).r0 = s.r0 := rfl
@[simp] theorem returnAndEnable_bank0 (s : State) : (returnAndEnable s).bank0 = s.bank0 := rfl
@[simp] theorem returnAndEnable_bank1 (s : State) : (returnAndEnable s).bank1 = s.bank1 := rfl
@[simp] theorem returnAndEnable_iar (s : State) : (returnAndEnable s).iar = rasGet s.ras s.sp := rfl
@[simp] theorem returnAndEnable_flag (s : State) : (returnAndEnable s).flag = s.flag := rfl
@[simp] theorem returnAndEnable_ii (s : State) : (returnAndEnable s).ii = false := rfl
@[simp] theorem returnAndEnable_sp (s : State) : (returnAndEnable s).sp = s.sp - 1 := rfl
@[simp] theorem returnAndEnable_psl (s : State) : (returnAndEnable s).psl = s.psl := rfl
@[simp] theorem returnAndEnable_ras (s : State) : (returnAndEnable s).ras = s.ras := rfl
@[simp] theorem returnAndEnable_intWaiting (s : State) : (returnAndEnable s).intWaiting = s.intWaiting := rfl
@[simp] theorem returnAndEnable_runState (s : State) : (returnAndEnable s).runState = s.runState := rfl
@[simp] theorem returnAndEnable_ir (s : State) : (returnAndEnable s).ir = s.ir := rfl
@[simp] theorem returnAndEnable_fetchedAhead (s : State) : (returnAndEnable s).fetchedAhead = s.fetchedAhead := rfl
@[simp] theorem returnAndEnable_mem (s : State) : (returnAndEnable s).mem = s.mem := rfl
@[simp] theorem returnAndEnable_env (s : State) : (returnAndEnable s).env = s.env := rfl

/-! `drawCC` -/

@[simp] theorem drawCC_r0 (s : State) : (drawCC s).r0 = s.r0 := rfl
@[simp] theorem drawCC_bank0 (s : State) : (drawCC s).bank0 = s.bank0 := rfl
@[simp] theorem drawCC_bank1 (s : State) : (drawCC s).bank1 = s.bank1 := rfl
@[simp] theorem drawCC_iar (s : State) : (drawCC s).iar = s.iar := rfl
@[simp] theorem drawCC_flag (s : State) : (drawCC s).flag = s.flag := rfl
@[simp] theorem drawCC_ii (s : State) : (drawCC s).ii = s.ii := rfl
@[simp] theorem drawCC_sp (s : State) : (drawCC s).sp = s.sp := rfl
@[simp] theorem drawCC_psl (s : State) : (drawCC s).psl = withCC s.psl (Config.freeCC s.env.draws) := rfl
@[simp] theorem drawCC_ras (s : State) : (drawCC s).ras = s.ras := rfl
@[simp] theorem drawCC_intWaiting (s : State) : (drawCC s).intWaiting = s.intWaiting := rfl
@[simp] theorem drawCC_runState (s : State) : (drawCC s).runState = s.runState := rfl
@[simp] theorem drawCC_ir (s : State) : (drawCC s).ir = s.ir := rfl
@[simp] theorem drawCC_fetchedAhead (s : State) : (drawCC s).fetchedAhead = s.fetchedAhead := rfl
@[simp] theorem drawCC_mem (s : State) : (drawCC s).mem = s.mem := rfl
@[simp] theorem drawCC_env (s : State) : (drawCC s).env = { s.env with draws := s.env.draws + 1 } := rfl

/-! `senseRequest` -/

@[simp] theorem senseRequest_r0 (s : State) : (senseRequest s).r0 = s.r0 := rfl
@[simp] theorem senseRequest_bank0 (s : State) : (senseRequest s).bank0 = s.bank0 := rfl
@[simp] theorem senseRequest_bank1 (s : State) : (senseRequest s).bank1 = s.bank1 := rfl
@[simp] theorem senseRequest_iar (s : State) : (senseRequest s).iar = s.iar := rfl
@[simp] theorem senseRequest_flag (s : State) : (senseRequest s).flag = s.flag := rfl
@[simp] theorem senseRequest_ii (s : State) : (senseRequest s).ii = s.ii := rfl
@[simp] theorem senseRequest_sp (s : State) : (senseRequest s).sp = s.sp := rfl
@[simp] theorem senseRequest_psl (s : State) : (senseRequest s).psl = s.psl := rfl
@[simp] theorem senseRequest_ras (s : State) : (senseRequest s).ras = s.ras := rfl
@[simp] theorem senseRequest_intWaiting (s : State) : (senseRequest s).intWaiting = s.env.now.intreq := rfl
@[simp] theorem senseRequest_runState (s : State) : (senseRequest s).runState = s.runState := rfl
@[simp] theorem senseRequest_ir (s : State) : (senseRequest s).ir = s.ir := rfl
@[simp] theorem senseRequest_fetchedAhead (s : State) : (senseRequest s).fetchedAhead = s.fetchedAhead := rfl
@[simp] theorem senseRequest_mem (s : State) : (senseRequest s).mem = s.mem := rfl
@[simp] theorem senseRequest_env (s : State) : (senseRequest s).env = s.env := rfl

/-! `prefetch` -/

@[simp] theorem prefetch_r0 (s : State) : (prefetch s).r0 = ((memRead s.iar s).2).r0 := rfl
@[simp] theorem prefetch_bank0 (s : State) : (prefetch s).bank0 = ((memRead s.iar s).2).bank0 := rfl
@[simp] theorem prefetch_bank1 (s : State) : (prefetch s).bank1 = ((memRead s.iar s).2).bank1 := rfl
@[simp] theorem prefetch_iar (s : State) : (prefetch s).iar = ((memRead s.iar s).2).iar := rfl
@[simp] theorem prefetch_flag (s : State) : (prefetch s).flag = ((memRead s.iar s).2).flag := rfl
@[simp] theorem prefetch_ii (s : State) : (prefetch s).ii = ((memRead s.iar s).2).ii := rfl
@[simp] theorem prefetch_sp (s : State) : (prefetch s).sp = ((memRead s.iar s).2).sp := rfl
@[simp] theorem prefetch_psl (s : State) : (prefetch s).psl = ((memRead s.iar s).2).psl := rfl
@[simp] theorem prefetch_ras (s : State) : (prefetch s).ras = ((memRead s.iar s).2).ras := rfl
@[simp] theorem prefetch_intWaiting (s : State) : (prefetch s).intWaiting = ((memRead s.iar s).2).intWaiting := rfl
@[simp] theorem prefetch_runState (s : State) : (prefetch s).runState = ((memRead s.iar s).2).runState := rfl
@[simp] theorem prefetch_ir (s : State) : (prefetch s).ir = (memRead s.iar s).1 := rfl
@[simp] theorem prefetch_fetchedAhead (s : State) : (prefetch s).fetchedAhead = ((memRead s.iar s).2).fetchedAhead := rfl
@[simp] theorem prefetch_mem (s : State) : (prefetch s).mem = ((memRead s.iar s).2).mem := rfl
@[simp] theorem prefetch_env (s : State) : (prefetch s).env = ((memRead s.iar s).2).env := rfl

/-! `setChip` -/

@[simp] theorem setChip_r0 (p : PowerUp) (s : State) : (setChip p s).r0 = p.r0 := rfl
@[simp] theorem setChip_bank0 (p : PowerUp) (s : State) : (setChip p s).bank0 = { r1 := p.r1, r2 := p.r2, r3 := p.r3 } := rfl
@[simp] theorem setChip_bank1 (p : PowerUp) (s : State) : (setChip p s).bank1 = { r1 := p.r1', r2 := p.r2', r3 := p.r3' } := rfl
@[simp] theorem setChip_iar (p : PowerUp) (s : State) : (setChip p s).iar = s.iar := rfl
@[simp] theorem setChip_flag (p : PowerUp) (s : State) : (setChip p s).flag = p.flag := rfl
@[simp] theorem setChip_ii (p : PowerUp) (s : State) : (setChip p s).ii = s.ii := rfl
@[simp] theorem setChip_sp (p : PowerUp) (s : State) : (setChip p s).sp = p.sp := rfl
@[simp] theorem setChip_psl (p : PowerUp) (s : State) : (setChip p s).psl = p.psl := rfl
@[simp] theorem setChip_ras (p : PowerUp) (s : State) : (setChip p s).ras = p.ras := rfl
@[simp] theorem setChip_intWaiting (p : PowerUp) (s : State) : (setChip p s).intWaiting = s.intWaiting := rfl
@[simp] theorem setChip_runState (p : PowerUp) (s : State) : (setChip p s).runState = s.runState := rfl
@[simp] theorem setChip_ir (p : PowerUp) (s : State) : (setChip p s).ir = s.ir := rfl
@[simp] theorem setChip_fetchedAhead (p : PowerUp) (s : State) : (setChip p s).fetchedAhead = s.fetchedAhead := rfl
@[simp] theorem setChip_mem (p : PowerUp) (s : State) : (setChip p s).mem = s.mem := rfl
@[simp] theorem setChip_env (p : PowerUp) (s : State) : (setChip p s).env = s.env := rfl

/-! `countDraw` -/

@[simp] theorem countDraw_r0 (s : State) : (countDraw s).r0 = s.r0 := rfl
@[simp] theorem countDraw_bank0 (s : State) : (countDraw s).bank0 = s.bank0 := rfl
@[simp] theorem countDraw_bank1 (s : State) : (countDraw s).bank1 = s.bank1 := rfl
@[simp] theorem countDraw_iar (s : State) : (countDraw s).iar = s.iar := rfl
@[simp] theorem countDraw_flag (s : State) : (countDraw s).flag = s.flag := rfl
@[simp] theorem countDraw_ii (s : State) : (countDraw s).ii = s.ii := rfl
@[simp] theorem countDraw_sp (s : State) : (countDraw s).sp = s.sp := rfl
@[simp] theorem countDraw_psl (s : State) : (countDraw s).psl = s.psl := rfl
@[simp] theorem countDraw_ras (s : State) : (countDraw s).ras = s.ras := rfl
@[simp] theorem countDraw_intWaiting (s : State) : (countDraw s).intWaiting = s.intWaiting := rfl
@[simp] theorem countDraw_runState (s : State) : (countDraw s).runState = s.runState := rfl
@[simp] theorem countDraw_ir (s : State) : (countDraw s).ir = s.ir := rfl
@[simp] theorem countDraw_fetchedAhead (s : State) : (countDraw s).fetchedAhead = s.fetchedAhead := rfl
@[simp] theorem countDraw_mem (s : State) : (countDraw s).mem = s.mem := rfl
@[simp] theorem countDraw_env (s : State) : (countDraw s).env = { s.env with draws := s.env.draws + 1 } := rfl

/-! `scramble` -/

@[simp] theorem scramble_r0 (s : State) : (scramble s).r0 = (Config.powerUp s.env.draws).r0 := rfl
@[simp] theorem scramble_bank0 (s : State) : (scramble s).bank0 = { r1 := (Config.powerUp s.env.draws).r1, r2 := (Config.powerUp s.env.draws).r2, r3 := (Config.powerUp s.env.draws).r3 } := rfl
@[simp] theorem scramble_bank1 (s : State) : (scramble s).bank1 = { r1 := (Config.powerUp s.env.draws).r1', r2 := (Config.powerUp s.env.draws).r2', r3 := (Config.powerUp s.env.draws).r3' } := rfl
@[simp] theorem scramble_iar (s : State) : (scramble s).iar = s.iar := rfl
@[simp] theorem scramble_flag (s : State) : (scramble s).flag = (Config.powerUp s.env.draws).flag := rfl
@[simp] theorem scramble_ii (s : State) : (scramble s).ii = s.ii := rfl
@[simp] theorem scramble_sp (s : State) : (scramble s).sp = (Config.powerUp s.env.draws).sp := rfl
@[simp] theorem scramble_psl (s : State) : (scramble s).psl = (Config.powerUp s.env.draws).psl := rfl
@[simp] theorem scramble_ras (s : State) : (scramble s).ras = (Config.powerUp s.env.draws).ras := rfl
@[simp] theorem scramble_intWaiting (s : State) : (scramble s).intWaiting = s.intWaiting := rfl
@[simp] theorem scramble_runState (s : State) : (scramble s).runState = s.runState := rfl
@[simp] theorem scramble_ir (s : State) : (scramble s).ir = s.ir := rfl
@[simp] theorem scramble_fetchedAhead (s : State) : (scramble s).fetchedAhead = s.fetchedAhead := rfl
@[simp] theorem scramble_mem (s : State) : (scramble s).mem = s.mem := rfl
@[simp] theorem scramble_env (s : State) : (scramble s).env = { s.env with draws := s.env.draws + 1 } := rfl

/-! `resetChip` -/

@[simp] theorem resetChip_r0 (s : State) : (resetChip s).r0 = (scramble s).r0 := rfl
@[simp] theorem resetChip_bank0 (s : State) : (resetChip s).bank0 = (scramble s).bank0 := rfl
@[simp] theorem resetChip_bank1 (s : State) : (resetChip s).bank1 = (scramble s).bank1 := rfl
@[simp] theorem resetChip_iar (s : State) : (resetChip s).iar = 0 := rfl
@[simp] theorem resetChip_flag (s : State) : (resetChip s).flag = (scramble s).flag := rfl
@[simp] theorem resetChip_ii (s : State) : (resetChip s).ii = false := rfl
@[simp] theorem resetChip_sp (s : State) : (resetChip s).sp = (scramble s).sp := rfl
@[simp] theorem resetChip_psl (s : State) : (resetChip s).psl = (scramble s).psl := rfl
@[simp] theorem resetChip_ras (s : State) : (resetChip s).ras = (scramble s).ras := rfl
@[simp] theorem resetChip_intWaiting (s : State) : (resetChip s).intWaiting = false := rfl
@[simp] theorem resetChip_runState (s : State) : (resetChip s).runState = .run := rfl
@[simp] theorem resetChip_ir (s : State) : (resetChip s).ir = (scramble s).ir := rfl
@[simp] theorem resetChip_fetchedAhead (s : State) : (resetChip s).fetchedAhead = false := rfl
@[simp] theorem resetChip_mem (s : State) : (resetChip s).mem = (scramble s).mem := rfl
@[simp] theorem resetChip_env (s : State) : (resetChip s).env = (scramble s).env := rfl

/-! `enterPause` -/

@[simp] theorem enterPause_r0 (s : State) : (enterPause s).r0 = (prefetch (senseRequest s)).r0 := rfl
@[simp] theorem enterPause_bank0 (s : State) : (enterPause s).bank0 = (prefetch (senseRequest s)).bank0 := rfl
@[simp] theorem enterPause_bank1 (s : State) : (enterPause s).bank1 = (prefetch (senseRequest s)).bank1 := rfl
@[simp] theorem enterPause_iar (s : State) : (enterPause s).iar = (prefetch (senseRequest s)).iar := rfl
@[simp] theorem enterPause_flag (s : State) : (enterPause s).flag = (prefetch (senseRequest s)).flag := rfl
@[simp] theorem enterPause_ii (s : State) : (enterPause s).ii = (prefetch (senseRequest s)).ii := rfl
@[simp] theorem enterPause_sp (s : State) : (enterPause s).sp = (prefetch (senseRequest s)).sp := rfl
@[simp] theorem enterPause_psl (s : State) : (enterPause s).psl = (prefetch (senseRequest s)).psl := rfl
@[simp] theorem enterPause_ras (s : State) : (enterPause s).ras = (prefetch (senseRequest s)).ras := rfl
@[simp] theorem enterPause_intWaiting (s : State) : (enterPause s).intWaiting = (prefetch (senseRequest s)).intWaiting := rfl
@[simp] theorem enterPause_runState (s : State) : (enterPause s).runState = .waitPause := rfl
@[simp] theorem enterPause_ir (s : State) : (enterPause s).ir = (prefetch (senseRequest s)).ir := rfl
@[simp] theorem enterPause_fetchedAhead (s : State) : (enterPause s).fetchedAhead = (prefetch (senseRequest s)).fetchedAhead := rfl
@[simp] theorem enterPause_mem (s : State) : (enterPause s).mem = (prefetch (senseRequest s)).mem := rfl
@[simp] theorem enterPause_env (s : State) : (enterPause s).env = (prefetch (senseRequest s)).env := rfl

/-! `withByte` -/

@[simp] theorem withByte_r0 (s : State) (a : Addr) (v : Byte) : (s.withByte a v).r0 = s.r0 := rfl
@[simp] theorem withByte_bank0 (s : State) (a : Addr) (v : Byte) : (s.withByte a v).bank0 = s.bank0 := rfl
@[simp] theorem withByte_bank1 (s : State) (a : Addr) (v : Byte) : (s.withByte a v).bank1 = s.bank1 := rfl
@[simp] theorem withByte_iar (s : State) (a : Addr) (v : Byte) : (s.withByte a v).iar = s.iar := rfl
@[simp] theorem withByte_flag (s : State) (a : Addr) (v : Byte) : (s.withByte a v).flag = s.flag := rfl
@[simp] theorem withByte_ii (s : State) (a : Addr) (v : Byte) : (s.withByte a v).ii = s.ii := rfl
@[simp] theorem withByte_sp (s : State) (a : Addr) (v : Byte) : (s.withByte a v).sp = s.sp := rfl
@[simp] theorem withByte_psl (s : State) (a : Addr) (v : Byte) : (s.withByte a v).psl = s.psl := rfl
@[simp] theorem withByte_ras (s : State) (a : Addr) (v : Byte) : (s.withByte a v).ras = s.ras := rfl
@[simp] theorem withByte_intWaiting (s : State) (a : Addr) (v : Byte) : (s.withByte a v).intWaiting = s.intWaiting := rfl
@[simp] theorem withByte_runState (s : State) (a : Addr) (v : Byte) : (s.withByte a v).runState = s.runState := rfl
@[simp] theorem withByte_ir (s : State) (a : Addr) (v : Byte) : (s.withByte a v).ir = s.ir := rfl
@[simp] theorem withByte_fetchedAhead (s : State) (a : Addr) (v : Byte) : (s.withByte a v).fetchedAhead = s.fetchedAhead := rfl
@[simp] theorem withByte_mem (s : State) (a : Addr) (v : Byte) : (s.withByte a v).mem = Memory.put s.mem a.toNat v := rfl

end Sys2Proof.Machine
end

