-- ==== Sys2Proof/Laws/Registers.lean ====
section
/-! SUPPORT. Laws of reading and writing a general register. -/

namespace Sys2Proof

open Sys2Proof.Machine

theorem readReg_eq_regNow (q : Reg) (s : State) : readReg q s = regNow q s := by
  cases q <;> simp [readReg, regNow, regIn, currentBank] <;> split <;> rfl

/-- A register write changes the one register it names. -/
theorem regIn_writeReg (b : Bool) (q r : Reg) (v : Byte) (s : State) :
    regIn b q (writeReg r v s) = if q = r ∧ (q = .r0 ∨ b = rsOf s.psl) then v else regIn b q s := by
  cases h : rsOf s.psl <;> cases b <;> cases q <;> cases r <;> simp [regIn, writeReg, setBank, currentBank, h]

@[simp] theorem writeReg_iar (r : Reg) (v : Byte) (s : State) : (writeReg r v s).iar = s.iar := by
  cases r <;> simp [writeReg, setBank] <;> split <;> rfl
@[simp] theorem writeReg_flag (r : Reg) (v : Byte) (s : State) : (writeReg r v s).flag = s.flag := by
  cases r <;> simp [writeReg, setBank] <;> split <;> rfl
@[simp] theorem writeReg_ii (r : Reg) (v : Byte) (s : State) : (writeReg r v s).ii = s.ii := by
  cases r <;> simp [writeReg, setBank] <;> split <;> rfl
@[simp] theorem writeReg_sp (r : Reg) (v : Byte) (s : State) : (writeReg r v s).sp = s.sp := by
  cases r <;> simp [writeReg, setBank] <;> split <;> rfl
@[simp] theorem writeReg_psl (r : Reg) (v : Byte) (s : State) : (writeReg r v s).psl = s.psl := by
  cases r <;> simp [writeReg, setBank] <;> split <;> rfl
@[simp] theorem writeReg_ras (r : Reg) (v : Byte) (s : State) : (writeReg r v s).ras = s.ras := by
  cases r <;> simp [writeReg, setBank] <;> split <;> rfl
@[simp] theorem writeReg_intWaiting (r : Reg) (v : Byte) (s : State) : (writeReg r v s).intWaiting = s.intWaiting := by
  cases r <;> simp [writeReg, setBank] <;> split <;> rfl
@[simp] theorem writeReg_runState (r : Reg) (v : Byte) (s : State) : (writeReg r v s).runState = s.runState := by
  cases r <;> simp [writeReg, setBank] <;> split <;> rfl
@[simp] theorem writeReg_ir (r : Reg) (v : Byte) (s : State) : (writeReg r v s).ir = s.ir := by
  cases r <;> simp [writeReg, setBank] <;> split <;> rfl
@[simp] theorem writeReg_fetchedAhead (r : Reg) (v : Byte) (s : State) : (writeReg r v s).fetchedAhead = s.fetchedAhead := by
  cases r <;> simp [writeReg, setBank] <;> split <;> rfl
@[simp] theorem writeReg_mem (r : Reg) (v : Byte) (s : State) : (writeReg r v s).mem = s.mem := by
  cases r <;> simp [writeReg, setBank] <;> split <;> rfl
@[simp] theorem writeReg_env (r : Reg) (v : Byte) (s : State) : (writeReg r v s).env = s.env := by
  cases r <;> simp [writeReg, setBank] <;> split <;> rfl

/-- The register just written reads as the byte written, whatever the new PSL, if it selects the same bank. -/
theorem regNow_writeReg_self (r : Reg) (v p : Byte) (s : State) (h : rsOf p = rsOf s.psl) :
    regNow r { writeReg r v s with psl := p } = v := by
  have : regNow r { writeReg r v s with psl := p } = regIn (rsOf s.psl) r (writeReg r v s) := by
    simp only [regNow, h]; cases r <;> rfl
  rw [this, regIn_writeReg]; simp

/-- What a write of one register keeps. -/
theorem regsKeptBut_writeReg (r : Reg) (v p : Byte) (s : State) :
    regsKeptBut (fun q => q = r) s { writeReg r v s with psl := p } := by
  have e : ∀ b q, regIn b q { writeReg r v s with psl := p } = regIn b q (writeReg r v s) := by
    intro b q; cases q <;> rfl
  constructor
  · intro q hq; rw [e, regIn_writeReg]; simp [hq]
  · intro q hq; rw [e, regIn_writeReg]
    simp only [hq, false_or]
    cases rsOf s.psl <;> simp

theorem regsKept.refl (s : State) : regsKept s s := fun _ _ => rfl

theorem regsKept.trans {s t u : State} (h : regsKept s t) (k : regsKept t u) : regsKept s u :=
  fun b q => (k b q).trans (h b q)

theorem regsKept.but {s t : State} (w : Reg → Prop) (h : regsKept s t) : regsKeptBut w s t :=
  ⟨fun q _ => h _ q, fun q _ => h _ q⟩

theorem regsKeptBut.trans {w : Reg → Prop} {s t u : State} (h : regsKeptBut w s t) (hp : t.psl = s.psl)
    (k : regsKeptBut w t u) : regsKeptBut w s u :=
  ⟨fun q hq => (hp ▸ k.1 q hq).trans (h.1 q hq), fun q hq => (hp ▸ k.2 q hq).trans (h.2 q hq)⟩

theorem regsKeptBut.mono {w v : Reg → Prop} {s t : State} (hv : ∀ q, w q → v q) (h : regsKeptBut w s t) :
    regsKeptBut v s t := ⟨fun q hq => h.1 q fun c => hq (hv q c), h.2⟩

end Sys2Proof
end

