-- ==== Sys2Proof/Laws/Ops.lean ====
section
/-! SUPPORT. What each shared operation can do, said once: reads touch only the environment's bus data; writes only the byte they address; pushes and pops only the stack. -/

namespace Sys2Proof

open Sys2Proof.Machine

/-! Operations that only use the bus -/

/-- From s to u only the environment's answers, record and draws may differ. -/
def BusOnly (s u : State) : Prop := u = { s with env := u.env } ∧ pinsKept s u

theorem BusOnly.refl (s : State) : BusOnly s s := ⟨rfl, rfl, rfl, rfl⟩

theorem BusOnly.trans {s t u : State} (h : BusOnly s t) (k : BusOnly t u) : BusOnly s u := by
  obtain ⟨h1, h2, h3, h4⟩ := h
  obtain ⟨k1, k2, k3, k4⟩ := k
  refine ⟨?_, k2.trans h2, k3.trans h3, k4.trans h4⟩
  rw [k1, h1]

theorem BusOnly.psl {s u : State} (h : BusOnly s u) : u.psl = s.psl := by rw [h.1]
theorem BusOnly.iar {s u : State} (h : BusOnly s u) : u.iar = s.iar := by rw [h.1]
theorem BusOnly.mem {s u : State} (h : BusOnly s u) : u.mem = s.mem := by rw [h.1]
theorem BusOnly.ras {s u : State} (h : BusOnly s u) : u.ras = s.ras := by rw [h.1]
theorem BusOnly.sp {s u : State} (h : BusOnly s u) : u.sp = s.sp := by rw [h.1]
theorem BusOnly.flag {s u : State} (h : BusOnly s u) : u.flag = s.flag := by rw [h.1]
theorem BusOnly.ii {s u : State} (h : BusOnly s u) : u.ii = s.ii := by rw [h.1]
theorem BusOnly.ir {s u : State} (h : BusOnly s u) : u.ir = s.ir := by rw [h.1]
theorem BusOnly.fetchedAhead {s u : State} (h : BusOnly s u) : u.fetchedAhead = s.fetchedAhead := by rw [h.1]
theorem BusOnly.intWaiting {s u : State} (h : BusOnly s u) : u.intWaiting = s.intWaiting := by rw [h.1]
theorem BusOnly.runState {s u : State} (h : BusOnly s u) : u.runState = s.runState := by rw [h.1]

theorem BusOnly.regIn {s u : State} (h : BusOnly s u) (b : Bool) (q : Reg) : regIn b q u = regIn b q s := by
  rw [h.1]; cases q <;> rfl

theorem BusOnly.regsKept {s u : State} (h : BusOnly s u) : regsKept s u := h.regIn

theorem BusOnly.regNow {s u : State} (h : BusOnly s u) (q : Reg) : regNow q u = regNow q s := by
  simp only [Sys2Proof.regNow, h.psl]; exact h.regIn _ q

theorem BusOnly.readReg {s u : State} (h : BusOnly s u) (q : Reg) : readReg q u = readReg q s := by
  rw [readReg_eq_regNow, readReg_eq_regNow]; exact h.regNow q

theorem BusOnly.peek {s u : State} (h : BusOnly s u) (a : Addr) : u.peek a = s.peek a := by
  simp only [State.peek, h.mem]

theorem BusOnly.kindAt {s u : State} (h : BusOnly s u) (a : Addr) : u.env.kindAt a = s.env.kindAt a := by
  simp only [Env.kindAt, h.2.1]

theorem BusOnly.quiet {s u : State} (h : BusOnly s u) : quiet s u :=
  ⟨h.iar, ⟨h.flag, h.ii, h.sp⟩, h.ras, h.intWaiting, h.runState, h.ir, h.fetchedAhead, h.2⟩

theorem BusOnly.dataFrame {s u : State} (h : BusOnly s u) : dataFrame s u := ⟨h.quiet, h.peek⟩

theorem BusOnly.branchFrame {s u : State} (h : BusOnly s u) (a : Addr) : branchFrame s { u with iar := a } :=
  ⟨h.psl, ⟨h.flag, h.ii, h.sp⟩, h.ras, h.intWaiting, h.runState, h.ir, h.fetchedAhead, h.2, h.peek⟩

theorem nextAnswer_bus (p : Place) (s : State) : BusOnly s (nextAnswer p s).2 := by
  unfold nextAnswer; split <;> exact ⟨rfl, rfl, rfl, rfl⟩

theorem record_bus (op : BusOp) (s : State) : BusOnly s (record op s) := ⟨rfl, rfl, rfl, rfl⟩

theorem drawByte_bus (s : State) : BusOnly s (drawByte s).2 := ⟨rfl, rfl, rfl, rfl⟩

theorem deviceRead_bus (p : Place) (op : Byte → BusOp) (s : State) : BusOnly s (deviceRead p op s).2 :=
  (nextAnswer_bus p s).trans (record_bus _ _)

/-- An answer given is gone at its place; every other place keeps its own. -/
theorem answersOf_dropAnswer (p q : Place) (ds : List Device) :
    answersOf q (dropAnswer p ds) = if q = p then (answersOf p ds).tail else answersOf q ds := by
  induction ds with
  | nil => simp [answersOf, dropAnswer]
  | cons d t ih =>
    simp only [dropAnswer]
    by_cases hp : d.place = p
    · subst hp
      by_cases hq : q = d.place
      · simp [answersOf, hq]
      · simp [answersOf, hq, Ne.symm hq]
    · by_cases hq : d.place = q
      · subst hq; simp [answersOf, hp]
      · simp [answersOf, hp, hq, ih]

/-- All a read of a place does to the devices (48_io.md R300). -/
theorem deviceRead_reads (p : Place) (op : Byte → BusOp) (s : State) :
    readsPlace p op (deviceRead p op s).1 s (deviceRead p op s).2 := by
  cases h : answersOf p s.env.devices with
  | nil =>
    refine ⟨?_, fun q _ => ?_, ?_, ?_⟩ <;> simp [deviceRead, nextAnswer, h, drawByte, record]
  | cons b t =>
    refine ⟨?_, fun q hq => ?_, ?_, ?_⟩ <;> simp [deviceRead, nextAnswer, h, record, answersOf_dropAnswer]
    intro e; exact absurd e hq

theorem memRead_bus (a : Addr) (s : State) : BusOnly s (memRead a s).2 := by
  unfold memRead
  split
  · exact .refl s
  · exact .refl s
  · exact deviceRead_bus _ _ s
  · exact drawByte_bus s

/-- Plain memory answers with the byte it holds, and nothing changes. -/
theorem memRead_plain {a : Addr} {s : State} (h : plainAt s a) : memRead a s = (s.peek a, s) := by
  rcases h with h | h <;> simp only [memRead, h]

theorem acknowledge_bus (s : State) : BusOnly s (acknowledge s).2 := deviceRead_bus _ _ s

theorem indirect_bus (p : Addr) (s : State) : BusOnly s (indirect p s).2 :=
  (memRead_bus p s).trans (memRead_bus _ _)

theorem through_bus (i : Bool) (a : Addr) (s : State) : BusOnly s (through i a s).2 := by
  unfold through; split
  · exact indirect_bus a s
  · exact .refl s

theorem zeroRelEA_bus (a : RelArg) (s : State) : BusOnly s (zeroRelEA a s).2 := through_bus _ _ s
theorem relEA_bus (a : RelArg) (s : State) : BusOnly s (relEA a s).2 := through_bus _ _ s
theorem branchAbsEA_bus (a : BrArg) (s : State) : BusOnly s (branchAbsEA a s).2 := through_bus _ _ s
theorem indexedBranchEA_bus (a : BrArg) (s : State) : BusOnly s (indexedBranchEA a s).2 := branchAbsEA_bus a s

theorem branchForm_bus (f : BranchForm) (s : State) : BusOnly s (f.ea s).2 := by
  cases f
  · exact relEA_bus _ s
  · exact branchAbsEA_bus _ s


/-! Reads depend on memory and environment alone -/

theorem memRead_congr {s t : State} (a : Addr) (hm : s.mem = t.mem) (he : s.env = t.env) :
    (memRead a s).1 = (memRead a t).1 ∧ (memRead a s).2.env = (memRead a t).2.env := by
  simp only [memRead, State.peek, deviceRead, nextAnswer, he, hm]
  cases t.env.kindAt a
  · exact ⟨rfl, he⟩
  · exact ⟨rfl, he⟩
  · cases h : answersOf (.memory a) t.env.devices <;> simp [drawByte, record, he]
  · simp [drawByte, he]

theorem indirect_congr {s t : State} (a : Addr) (hm : s.mem = t.mem) (he : s.env = t.env) :
    (indirect a s).1 = (indirect a t).1 ∧ (indirect a s).2.env = (indirect a t).2.env := by
  have h1 := memRead_congr a hm he
  have h2 := memRead_congr (s := (memRead a s).2) (t := (memRead a t).2) (nextInPage a) ((memRead_bus a s).mem.trans (hm.trans (memRead_bus a t).mem.symm)) h1.2
  exact ⟨by simp only [indirect, h1.1, h2.1], h2.2⟩

theorem through_congr {s t : State} (i : Bool) (a : Addr) (hm : s.mem = t.mem) (he : s.env = t.env) :
    (through i a s).1 = (through i a t).1 ∧ (through i a s).2.env = (through i a t).2.env := by
  unfold through; split
  · exact indirect_congr a hm he
  · exact ⟨rfl, he⟩

/-! Writes -/

/-- What a memory write can do. -/
theorem memWrite_cases (a : Addr) (v : Byte) (s : State) :
    (s.env.kindAt a = .ram ∧ memWrite a v s = { s with mem := Memory.put s.mem a.toNat v }) ∨
    (s.env.kindAt a = .device ∧ memWrite a v s = record (.memWrite a v) s) ∨
    ((s.env.kindAt a = .rom ∨ s.env.kindAt a = .nothing) ∧ memWrite a v s = s) := by
  unfold memWrite; cases h : s.env.kindAt a <;> simp

/-- What a DMA write can do. -/
theorem dmaWrite_cases (w : Addr × Byte) (s : State) :
    (s.env.kindAt w.1 = .ram ∧ dmaWrite w s = { s with mem := Memory.put s.mem w.1.toNat w.2 }) ∨
    (s.env.kindAt w.1 ≠ .ram ∧ dmaWrite w s = s) := by
  unfold dmaWrite; cases h : s.env.kindAt w.1 <;> simp

/-- What memory reads as after a write (20_memory.md R63). -/
theorem peek_memWrite (a b : Addr) (v : Byte) (s : State) :
    (memWrite a v s).peek b = if s.env.kindAt a = .ram ∧ b = a then v else s.peek b := by
  rcases memWrite_cases a v s with ⟨h, e⟩ | ⟨h, e⟩ | ⟨h, e⟩ <;> rw [e]
  · simp [h]
  · simp only [h]; simp [State.peek]
  · rcases h with h | h <;> simp [h]

/-- What a memory write keeps. -/
theorem memWrite_keeps (a : Addr) (v : Byte) (s : State) :
    regsKept s (memWrite a v s) ∧ (memWrite a v s).psl = s.psl ∧ quiet s (memWrite a v s) := by
  rcases memWrite_cases a v s with ⟨h, e⟩ | ⟨h, e⟩ | ⟨h, e⟩ <;> rw [e]
  · exact ⟨fun b q => by cases q <;> rfl, rfl, ⟨rfl, ⟨rfl, rfl, rfl⟩, rfl, rfl, rfl, rfl, rfl, rfl, rfl, rfl⟩⟩
  · exact ⟨(record_bus _ _).regsKept, rfl, (record_bus _ _).quiet⟩
  · exact ⟨.refl s, rfl, ⟨rfl, ⟨rfl, rfl, rfl⟩, rfl, rfl, rfl, rfl, rfl, rfl, rfl, rfl⟩⟩

theorem memWrite_wf {s : State} (a : Addr) (v : Byte) (h : Memory.wf s.mem = true) :
    Memory.wf (memWrite a v s).mem = true := by
  rcases memWrite_cases a v s with ⟨_, e⟩ | ⟨_, e⟩ | ⟨_, e⟩ <;> rw [e]
  · exact Memory.wf_put a v h
  · exact h
  · exact h

theorem dmaWrites_wf {ws : List (Addr × Byte)} {s : State} (h : Memory.wf s.mem = true) :
    Memory.wf (dmaWrites ws s).mem = true := by
  induction ws generalizing s with
  | nil => exact h
  | cons w t ih =>
    refine ih ?_
    rcases dmaWrite_cases w s with ⟨_, e⟩ | ⟨_, e⟩ <;> rw [e]
    · exact Memory.wf_put _ _ h
    · exact h

/-! External operations of any kind -/

/-- From s to u only memory and the environment's answers, record and draws may differ. -/
def OutsideOnly (s u : State) : Prop := u = { s with mem := u.mem, env := u.env } ∧ pinsKept s u

theorem OutsideOnly.refl (s : State) : OutsideOnly s s := ⟨rfl, rfl, rfl, rfl⟩

theorem OutsideOnly.trans {s t u : State} (h : OutsideOnly s t) (k : OutsideOnly t u) : OutsideOnly s u := by
  obtain ⟨h1, h2, h3, h4⟩ := h
  obtain ⟨k1, k2, k3, k4⟩ := k
  refine ⟨?_, k2.trans h2, k3.trans h3, k4.trans h4⟩
  rw [k1, h1]

theorem BusOnly.outside {s u : State} (h : BusOnly s u) : OutsideOnly s u :=
  ⟨by rw [h.mem]; exact h.1, h.2⟩

/-- An external operation changes nothing of the processor. -/
theorem perform_outside (op : BusOp) (s : State) : OutsideOnly s (perform op s) := by
  cases op with
  | memRead a v => exact (memRead_bus a s).outside
  | memWrite a v =>
    rcases memWrite_cases a v s with ⟨_, e⟩ | ⟨_, e⟩ | ⟨_, e⟩ <;> simp only [perform, e]
    · exact ⟨rfl, rfl, rfl, rfl⟩
    · exact (record_bus _ s).outside
    · exact .refl s
  | portRead p v => exact (deviceRead_bus _ _ s).outside
  | portWrite p v => exact (record_bus _ s).outside
  | extRead d v => exact (deviceRead_bus _ _ s).outside
  | extWrite d v => exact (record_bus _ s).outside
  | intAck v => exact (acknowledge_bus s).outside

/-- External operations change nothing of the processor. -/
theorem performAll_outside (ops : List BusOp) (s : State) : OutsideOnly s (performAll ops s) := by
  induction ops generalizing s with
  | nil => exact .refl s
  | cons op t ih => exact (perform_outside op s).trans (ih _)

theorem perform_wf {op : BusOp} {s : State} (h : Memory.wf s.mem = true) : Memory.wf (perform op s).mem = true := by
  cases op with
  | memRead a v => exact (memRead_bus a s).mem ▸ h
  | memWrite a v => exact memWrite_wf a v h
  | portRead p v => exact (deviceRead_bus (.port p) (.portRead p) s).mem ▸ h
  | portWrite p v => exact h
  | extRead d v => exact (deviceRead_bus (.extended d) (.extRead d) s).mem ▸ h
  | extWrite d v => exact h
  | intAck v => exact (acknowledge_bus s).mem ▸ h

theorem performAll_wf {ops : List BusOp} {s : State} (h : Memory.wf s.mem = true) :
    Memory.wf (performAll ops s).mem = true := by
  induction ops generalizing s with
  | nil => exact h
  | cons op t ih => exact ih (perform_wf h)

/-- External operations change no byte that is not RAM (20_memory.md R63). -/
theorem performAll_readOnly {ops : List BusOp} {s : State} {a : Addr} (h : s.env.kindAt a ≠ .ram) :
    (performAll ops s).peek a = s.peek a := by
  induction ops generalizing s with
  | nil => rfl
  | cons op t ih =>
    have hk : (perform op s).env.kindAt a = s.env.kindAt a := by simp only [Env.kindAt, (perform_outside op s).2.1]
    rw [performAll, ih (by rw [hk]; exact h)]
    cases op with
    | memRead b v => exact (memRead_bus b s).peek a
    | memWrite b v =>
      rw [perform, peek_memWrite]
      split
      · rename_i c; exact absurd (c.2 ▸ c.1) h
      · rfl
    | portRead p v => exact (deviceRead_bus (.port p) (.portRead p) s).peek a
    | portWrite p v => rfl
    | extRead d v => exact (deviceRead_bus (.extended d) (.extRead d) s).peek a
    | extWrite d v => rfl
    | intAck v => exact (acknowledge_bus s).peek a

/-! Addresses as numbers -/

theorem offsetOf_toNat (a : Addr) : (offsetOf a).toNat = a.toNat % 8192 := by
  simp [offsetOf, BitVec.extractLsb'_toNat]

theorem pageOf_toNat (a : Addr) : (pageOf a).toNat = a.toNat / 8192 := by
  have := a.isLt
  simp [pageOf, BitVec.extractLsb'_toNat, Nat.shiftRight_eq_div_pow]; omega

theorem append_toNat {n m : Nat} (a : BitVec n) (b : BitVec m) : (a ++ b).toNat = 2 ^ m * a.toNat + b.toNat := by
  rw [BitVec.toNat_append, ← Nat.shiftLeft_add_eq_or_of_lt b.isLt, Nat.shiftLeft_eq, Nat.mul_comm]

theorem inPage_toNat (p : Addr) (n : Offset) : (inPage p n).toNat = 8192 * (p.toNat / 8192) + n.toNat := by
  show (pageOf p ++ n).toNat = _
  rw [append_toNat, pageOf_toNat]; rfl

theorem indexBy_toNat (a : Addr) (x : Byte) :
   (indexBy a x).toNat = 8192 * (a.toNat / 8192) + (a.toNat % 8192 + x.toNat) % 8192 := by
  have := x.isLt
  rw [indexBy, inPage_toNat, BitVec.toNat_add, offsetOf_toNat, BitVec.toNat_setWidth]
  simp

/-! The return address stack -/

theorem rasGet_rasSet (v : Vector Addr 8) (i j : BitVec 3) (a : Addr) :
    rasGet (rasSet v i a) j = if j = i then a else rasGet v j := by
  simp only [rasGet, rasSet, Vector.getElem_set, BitVec.toNat_inj, eq_comm]

theorem pushed_pushAndBranch (ea : Addr × State) : pushed ea.2.iar ea.2 (pushAndBranch ea) := by
  refine ⟨?_, ?_, ?_⟩
  · simp [BitVec.toNat_add]
  · simp [rasGet_rasSet]
  · intro i hi
    have : i ≠ ea.2.sp + 1 := hi
    simp only [pushAndBranch_ras, rasGet_rasSet, if_neg this]

/-! Branches and calls -/

theorem condTrue_iff (p : Byte) (v : CondVal) : condTrue p v = true ↔ (v = 3 ∨ ccOf p = v) := by simp [condTrue]

theorem condFalse_iff (p : Byte) (v : CondVal) : condFalse p v = true ↔ ccOf p ≠ v := by simp [condFalse]

/-- A branch not taken changes the bus data at most (46_branch.md R241 (b)). -/
theorem notTaken_bus {ea : State → Addr × State} {s : State} (h : BusOnly s (ea s).2) : BusOnly s (notTaken ea s) := by
  unfold notTaken; split
  · exact h
  · exact .refl s

/-- A branch taken changes IAR and, through its pointer reads, the bus data. -/
theorem goTo_frame {ea : Addr × State} {s : State} (h : BusOnly s ea.2) :
    regsKept s (goTo ea) ∧ branchFrame s (goTo ea) ∧ (goTo ea).env = ea.2.env :=
  ⟨fun b q => (by rw [← h.regIn b q]; cases q <;> rfl), h.branchFrame _, rfl⟩

/-- A subroutine branch taken changes IAR, SP, one stack entry and, through its pointer reads, the bus data. -/
theorem push_frame {ea : Addr × State} {s : State} (h : BusOnly s ea.2) :
    pushed s.iar s (pushAndBranch ea) ∧ regsKept s (pushAndBranch ea) ∧ callFrame s (pushAndBranch ea) ∧
      (pushAndBranch ea).env = ea.2.env := by
  refine ⟨?_, fun b q => (by rw [← h.regIn b q]; cases q <;> rfl), ⟨h.psl, h.flag, h.ii, h.intWaiting, h.runState, h.ir, h.fetchedAhead, h.2, h.peek⟩, rfl⟩
  have := pushed_pushAndBranch ea
  rw [h.iar] at this
  obtain ⟨a, b, c⟩ := this
  exact ⟨by rw [a, h.sp], b, fun i hi => by rw [c i hi, h.ras]⟩

end Sys2Proof
end

