-- ==== Sys2Proof/Laws/Operands.lean ====
section
/-! SUPPORT. Laws of the operand forms: what computing an effective address and reading an operand can do, and the frame of an instruction that writes its result register. -/

namespace Sys2Proof

open Sys2Proof.Machine

/-! Frames -/

theorem quiet.trans {s t u : State} (h : quiet s t) (k : quiet t u) : quiet s u := by
  obtain ⟨a1, ⟨a2, a3, a4⟩, a5, a6, a7, a8, a9, a10, a11, a12⟩ := h
  obtain ⟨b1, ⟨b2, b3, b4⟩, b5, b6, b7, b8, b9, b10, b11, b12⟩ := k
  exact ⟨b1.trans a1, ⟨b2.trans a2, b3.trans a3, b4.trans a4⟩, b5.trans a5, b6.trans a6, b7.trans a7, b8.trans a8,
    b9.trans a9, b10.trans a10, b11.trans a11, b12.trans a12⟩

theorem dataFrame.trans {s t u : State} (h : dataFrame s t) (k : dataFrame t u) : dataFrame s u :=
  ⟨h.1.trans k.1, fun a => (k.2 a).trans (h.2 a)⟩

theorem quiet_refl (s : State) : quiet s s := ⟨rfl, ⟨rfl, rfl, rfl⟩, rfl, rfl, rfl, rfl, rfl, rfl, rfl, rfl⟩

theorem dataFrame_refl (s : State) : dataFrame s s := ⟨quiet_refl s, fun _ => rfl⟩

theorem quiet_writeReg (r : Reg) (v p : Byte) (s : State) : quiet s { writeReg r v s with psl := p } := by
  refine ⟨?_, ⟨?_, ?_, ?_⟩, ?_, ?_, ?_, ?_, ?_, ?_, ?_, ?_⟩ <;> simp

theorem dataFrame_writeReg (r : Reg) (v p : Byte) (s : State) : dataFrame s { writeReg r v s with psl := p } :=
  ⟨quiet_writeReg r v p s, fun a => by simp [State.peek]⟩

theorem writeReg_with_psl (r : Reg) (v : Byte) (s : State) : { writeReg r v s with psl := s.psl } = writeReg r v s := by
  cases r <;> simp [writeReg, setBank] <;> split <;> rfl

theorem dataFrame_writeReg' (r : Reg) (v : Byte) (s : State) : dataFrame s (writeReg r v s) := by
  have := dataFrame_writeReg r v s.psl s; rwa [writeReg_with_psl] at this

theorem regsKeptBut_writeReg' (r : Reg) (v : Byte) (s : State) : regsKeptBut (fun q => q = r) s (writeReg r v s) := by
  have := regsKeptBut_writeReg r v s.psl s; rwa [writeReg_with_psl] at this

theorem regNow_writeReg (r : Reg) (v : Byte) (s : State) : regNow r (writeReg r v s) = v := by
  have := regNow_writeReg_self r v s.psl s rfl; rwa [writeReg_with_psl] at this

/-! Index registers -/

/-- The index control's effect: one register write, or none (20_memory.md R85). -/
theorem stepIndex_cases (ic : IndexCtl) (x : Reg) (s : State) :
    ((ic = .inc ∨ ic = .dec) ∧
      stepIndex ic x s = writeReg x (if ic = .inc then regNow x s + 1 else regNow x s - 1) s) ∨
    (¬ (ic = .inc ∨ ic = .dec) ∧ stepIndex ic x s = s) := by
  cases ic <;> simp [stepIndex, readReg_eq_regNow]

theorem absEA_state (x : Reg) (a : AbsArg) (s : State) :
    (absEA x a s).2 = stepIndex a.ic x (through a.ind (inPage s.iar a.addr) s).2 := by
  unfold absEA; cases a.ic <;> rfl

/-- What computing the effective address of a memory form leaves: the bus used, one index register stepped, no flag and no memory changed. -/
theorem memForm_ea (m : MemForm) (s : State) :
    (m.ea s).2.psl = s.psl ∧ dataFrame s (m.ea s).2 ∧ regsKeptBut m.steps s (m.ea s).2 ∧
      ∀ q, m.steps q → regNow q (m.ea s).2 = m.stepped (regNow q s) := by
  cases m with
  | rel r a =>
    have h := relEA_bus a s
    exact ⟨h.psl, h.dataFrame, h.regsKept.but _, fun q hq => hq.elim⟩
  | abs x a =>
    have h := through_bus a.ind (inPage s.iar a.addr) s
    simp only [MemForm.ea, absEA_state]
    rcases stepIndex_cases a.ic x (through a.ind (inPage s.iar a.addr) s).2 with ⟨hi, e⟩ | ⟨hi, e⟩ <;> rw [e]
    · refine ⟨by simp [h.psl], h.dataFrame.trans (dataFrame_writeReg' _ _ _), ?_, ?_⟩
      · exact (h.regsKept.but _).trans h.psl
          ((regsKeptBut_writeReg' _ _ _).mono fun q hq => ⟨hi, hq⟩)
      · rintro q ⟨_, rfl⟩
        rw [regNow_writeReg, h.regNow]
        rcases hi with hi | hi <;> simp [MemForm.stepped, hi]
    · exact ⟨h.psl, h.dataFrame, h.regsKept.but _, fun q hq => absurd hq.1 hi⟩

theorem memForm_reg (x : Reg) (a : AbsArg) : absReg x a = (MemForm.abs x a).reg := by
  simp only [absReg, MemForm.reg]; cases a.ic <;> simp

/-- What reading the operand of a form leaves. -/
theorem form_operand (f : Form) (s : State) :
    (f.operand s).2.psl = s.psl ∧ dataFrame s (f.operand s).2 ∧ regsKeptBut f.steps s (f.operand s).2 ∧
      ∀ q, f.steps q → regNow q (f.operand s).2 = f.stepped (regNow q s) := by
  cases f with
  | z r => exact ⟨rfl, dataFrame_refl s, (regsKept.refl s).but _, fun q hq => hq.elim⟩
  | i r v => exact ⟨rfl, dataFrame_refl s, (regsKept.refl s).but _, fun q hq => hq.elim⟩
  | m a =>
    obtain ⟨h1, h2, h3, h4⟩ := memForm_ea a s
    have k := memRead_bus (a.ea s).1 (a.ea s).2
    exact ⟨k.psl.trans h1, h2.trans k.dataFrame, h3.trans h1 (k.regsKept.but _),
      fun q hq => (k.regNow q).trans (h4 q hq)⟩

/-- The result register written and the PSL replaced: the frame of the two-operand families. -/
theorem resultFrame_of_write {f : Form} {s : State} {v p : Byte} (hrs : rsOf p = rsOf s.psl)
    (hcc : ccOf p = ccMeaning v) :
    regNow f.dest { writeReg f.dest v (f.operand s).2 with psl := p } = v ∧
    resultFrame f s { writeReg f.dest v (f.operand s).2 with psl := p } := by
  obtain ⟨h1, h2, h3, h4⟩ := form_operand f s
  have hv := regNow_writeReg_self f.dest v p (f.operand s).2 (by rw [hrs, h1])
  have hk := regsKeptBut_writeReg f.dest v p (f.operand s).2
  refine ⟨hv, by rw [hv]; exact hcc, ?_, ?_, h2.trans (dataFrame_writeReg _ _ _ _), by simp⟩
  · intro q hq hd
    have := hk.1 q hd
    rw [h1] at this
    have e : regNow q { writeReg f.dest v (f.operand s).2 with psl := p } = regNow q (f.operand s).2 := by
      simp only [regNow, hrs, h1]; exact this
    rw [e]; exact h4 q hq
  · exact (h3.mono fun q hq => Or.inr hq).trans h1 (hk.mono fun q hq => Or.inl hq)

/-! What exec is on each two-operand family -/

theorem exec_lodOf (f : Form) (s : State) : exec (lodOf f) s = .next (loadFrom f.dest (f.operand s)) := by
  rcases f with r | ⟨r, v⟩ | (⟨r, a⟩ | ⟨x, a⟩)
  · simp only [lodOf, exec, execLodz, readReg_eq_regNow]; rfl
  · rfl
  · rfl
  · simp only [lodOf, exec, execLoda, memForm_reg]; rfl

theorem exec_addOf (f : Form) (s : State) : exec (addOf f) s = .next (addTo f.dest (f.operand s)) := by
  rcases f with r | ⟨r, v⟩ | (⟨r, a⟩ | ⟨x, a⟩)
  · simp only [addOf, exec, execAddz, readReg_eq_regNow]; rfl
  · rfl
  · rfl
  · simp only [addOf, exec, execAdda, memForm_reg]; rfl

theorem exec_subOf (f : Form) (s : State) : exec (subOf f) s = .next (subFrom f.dest (f.operand s)) := by
  rcases f with r | ⟨r, v⟩ | (⟨r, a⟩ | ⟨x, a⟩)
  · simp only [subOf, exec, execSubz, readReg_eq_regNow]; rfl
  · rfl
  · rfl
  · simp only [subOf, exec, execSuba, memForm_reg]; rfl

theorem exec_andOf (f : Form) (s : State) : exec (andOf f) s = .next (andTo f.dest (f.operand s)) := by
  rcases f with r | ⟨r, v⟩ | (⟨r, a⟩ | ⟨x, a⟩)
  · simp only [andOf, exec, execAndz, readReg_eq_regNow]; rfl
  · rfl
  · rfl
  · simp only [andOf, exec, execAnda, memForm_reg]; rfl

theorem exec_iorOf (f : Form) (s : State) : exec (iorOf f) s = .next (iorTo f.dest (f.operand s)) := by
  rcases f with r | ⟨r, v⟩ | (⟨r, a⟩ | ⟨x, a⟩)
  · simp only [iorOf, exec, execIorz, readReg_eq_regNow]; rfl
  · rfl
  · rfl
  · simp only [iorOf, exec, execIora, memForm_reg]; rfl

theorem exec_eorOf (f : Form) (s : State) : exec (eorOf f) s = .next (eorTo f.dest (f.operand s)) := by
  rcases f with r | ⟨r, v⟩ | (⟨r, a⟩ | ⟨x, a⟩)
  · simp only [eorOf, exec, execEorz, readReg_eq_regNow]; rfl
  · rfl
  · rfl
  · simp only [eorOf, exec, execEora, memForm_reg]; rfl

theorem exec_comOfForm (f : Form) (s : State) : exec (comOfForm f) s = .next (compareWith f.dest (f.operand s)) := by
  rcases f with r | ⟨r, v⟩ | (⟨r, a⟩ | ⟨x, a⟩)
  · simp only [comOfForm, exec, execComz, readReg_eq_regNow]; rfl
  · rfl
  · rfl
  · simp only [comOfForm, exec, execComa, memForm_reg]; rfl

theorem exec_strOf (m : MemForm) (s : State) : exec (strOf m) s = .next (storeAt m.reg (m.ea s)) := by
  cases m with
  | rel r a => rfl
  | abs x a => simp only [strOf, exec, execStra, memForm_reg]; rfl

end Sys2Proof
end

