-- ==== Sys2Proof/Laws/Fields.lean ====
section
/-! SUPPORT. Each field of State after each read operation, effective address function and write: simp lemmas, so that a rule over all instructions needs no operation unfolded. -/

namespace Sys2Proof

open Sys2Proof.Machine

theorem BusOnly.r0 {s u : State} (h : BusOnly s u) : u.r0 = s.r0 := by rw [h.1]
theorem BusOnly.bank0 {s u : State} (h : BusOnly s u) : u.bank0 = s.bank0 := by rw [h.1]
theorem BusOnly.bank1 {s u : State} (h : BusOnly s u) : u.bank1 = s.bank1 := by rw [h.1]
theorem BusOnly.platform {s u : State} (h : BusOnly s u) : u.env.platform = s.env.platform := h.2.1
theorem BusOnly.now {s u : State} (h : BusOnly s u) : u.env.now = s.env.now := h.2.2.1
theorem BusOnly.later {s u : State} (h : BusOnly s u) : u.env.later = s.env.later := h.2.2.2

theorem relOperand_bus (a : RelArg) (s : State) : BusOnly s (relOperand a s).2 :=
  (relEA_bus a s).trans (memRead_bus _ _)

theorem portRead_bus (p : Port) (s : State) : BusOnly s (portRead p s).2 := deviceRead_bus _ _ s

theorem extRead_bus (d : Byte) (s : State) : BusOnly s (extRead d s).2 := deviceRead_bus _ _ s

/-! `memRead` -/

@[simp] theorem memRead_r0 (a : Addr) (s : State) : (memRead a s).2.r0 = s.r0 := (memRead_bus a s).r0
@[simp] theorem memRead_bank0 (a : Addr) (s : State) : (memRead a s).2.bank0 = s.bank0 := (memRead_bus a s).bank0
@[simp] theorem memRead_bank1 (a : Addr) (s : State) : (memRead a s).2.bank1 = s.bank1 := (memRead_bus a s).bank1
@[simp] theorem memRead_iar (a : Addr) (s : State) : (memRead a s).2.iar = s.iar := (memRead_bus a s).iar
@[simp] theorem memRead_flag (a : Addr) (s : State) : (memRead a s).2.flag = s.flag := (memRead_bus a s).flag
@[simp] theorem memRead_ii (a : Addr) (s : State) : (memRead a s).2.ii = s.ii := (memRead_bus a s).ii
@[simp] theorem memRead_sp (a : Addr) (s : State) : (memRead a s).2.sp = s.sp := (memRead_bus a s).sp
@[simp] theorem memRead_psl (a : Addr) (s : State) : (memRead a s).2.psl = s.psl := (memRead_bus a s).psl
@[simp] theorem memRead_ras (a : Addr) (s : State) : (memRead a s).2.ras = s.ras := (memRead_bus a s).ras
@[simp] theorem memRead_intWaiting (a : Addr) (s : State) : (memRead a s).2.intWaiting = s.intWaiting := (memRead_bus a s).intWaiting
@[simp] theorem memRead_runState (a : Addr) (s : State) : (memRead a s).2.runState = s.runState := (memRead_bus a s).runState
@[simp] theorem memRead_ir (a : Addr) (s : State) : (memRead a s).2.ir = s.ir := (memRead_bus a s).ir
@[simp] theorem memRead_fetchedAhead (a : Addr) (s : State) : (memRead a s).2.fetchedAhead = s.fetchedAhead := (memRead_bus a s).fetchedAhead
@[simp] theorem memRead_mem (a : Addr) (s : State) : (memRead a s).2.mem = s.mem := (memRead_bus a s).mem
@[simp] theorem memRead_platform (a : Addr) (s : State) : (memRead a s).2.env.platform = s.env.platform := (memRead_bus a s).platform
@[simp] theorem memRead_now (a : Addr) (s : State) : (memRead a s).2.env.now = s.env.now := (memRead_bus a s).now
@[simp] theorem memRead_later (a : Addr) (s : State) : (memRead a s).2.env.later = s.env.later := (memRead_bus a s).later

/-! `deviceRead` -/

@[simp] theorem deviceRead_r0 (p : Place) (op : Byte → BusOp) (s : State) : (deviceRead p op s).2.r0 = s.r0 := (deviceRead_bus p op s).r0
@[simp] theorem deviceRead_bank0 (p : Place) (op : Byte → BusOp) (s : State) : (deviceRead p op s).2.bank0 = s.bank0 := (deviceRead_bus p op s).bank0
@[simp] theorem deviceRead_bank1 (p : Place) (op : Byte → BusOp) (s : State) : (deviceRead p op s).2.bank1 = s.bank1 := (deviceRead_bus p op s).bank1
@[simp] theorem deviceRead_iar (p : Place) (op : Byte → BusOp) (s : State) : (deviceRead p op s).2.iar = s.iar := (deviceRead_bus p op s).iar
@[simp] theorem deviceRead_flag (p : Place) (op : Byte → BusOp) (s : State) : (deviceRead p op s).2.flag = s.flag := (deviceRead_bus p op s).flag
@[simp] theorem deviceRead_ii (p : Place) (op : Byte → BusOp) (s : State) : (deviceRead p op s).2.ii = s.ii := (deviceRead_bus p op s).ii
@[simp] theorem deviceRead_sp (p : Place) (op : Byte → BusOp) (s : State) : (deviceRead p op s).2.sp = s.sp := (deviceRead_bus p op s).sp
@[simp] theorem deviceRead_psl (p : Place) (op : Byte → BusOp) (s : State) : (deviceRead p op s).2.psl = s.psl := (deviceRead_bus p op s).psl
@[simp] theorem deviceRead_ras (p : Place) (op : Byte → BusOp) (s : State) : (deviceRead p op s).2.ras = s.ras := (deviceRead_bus p op s).ras
@[simp] theorem deviceRead_intWaiting (p : Place) (op : Byte → BusOp) (s : State) : (deviceRead p op s).2.intWaiting = s.intWaiting := (deviceRead_bus p op s).intWaiting
@[simp] theorem deviceRead_runState (p : Place) (op : Byte → BusOp) (s : State) : (deviceRead p op s).2.runState = s.runState := (deviceRead_bus p op s).runState
@[simp] theorem deviceRead_ir (p : Place) (op : Byte → BusOp) (s : State) : (deviceRead p op s).2.ir = s.ir := (deviceRead_bus p op s).ir
@[simp] theorem deviceRead_fetchedAhead (p : Place) (op : Byte → BusOp) (s : State) : (deviceRead p op s).2.fetchedAhead = s.fetchedAhead := (deviceRead_bus p op s).fetchedAhead
@[simp] theorem deviceRead_mem (p : Place) (op : Byte → BusOp) (s : State) : (deviceRead p op s).2.mem = s.mem := (deviceRead_bus p op s).mem
@[simp] theorem deviceRead_platform (p : Place) (op : Byte → BusOp) (s : State) : (deviceRead p op s).2.env.platform = s.env.platform := (deviceRead_bus p op s).platform
@[simp] theorem deviceRead_now (p : Place) (op : Byte → BusOp) (s : State) : (deviceRead p op s).2.env.now = s.env.now := (deviceRead_bus p op s).now
@[simp] theorem deviceRead_later (p : Place) (op : Byte → BusOp) (s : State) : (deviceRead p op s).2.env.later = s.env.later := (deviceRead_bus p op s).later

/-! `portRead` -/

@[simp] theorem portRead_r0 (p : Port) (s : State) : (portRead p s).2.r0 = s.r0 := (portRead_bus p s).r0
@[simp] theorem portRead_bank0 (p : Port) (s : State) : (portRead p s).2.bank0 = s.bank0 := (portRead_bus p s).bank0
@[simp] theorem portRead_bank1 (p : Port) (s : State) : (portRead p s).2.bank1 = s.bank1 := (portRead_bus p s).bank1
@[simp] theorem portRead_iar (p : Port) (s : State) : (portRead p s).2.iar = s.iar := (portRead_bus p s).iar
@[simp] theorem portRead_flag (p : Port) (s : State) : (portRead p s).2.flag = s.flag := (portRead_bus p s).flag
@[simp] theorem portRead_ii (p : Port) (s : State) : (portRead p s).2.ii = s.ii := (portRead_bus p s).ii
@[simp] theorem portRead_sp (p : Port) (s : State) : (portRead p s).2.sp = s.sp := (portRead_bus p s).sp
@[simp] theorem portRead_psl (p : Port) (s : State) : (portRead p s).2.psl = s.psl := (portRead_bus p s).psl
@[simp] theorem portRead_ras (p : Port) (s : State) : (portRead p s).2.ras = s.ras := (portRead_bus p s).ras
@[simp] theorem portRead_intWaiting (p : Port) (s : State) : (portRead p s).2.intWaiting = s.intWaiting := (portRead_bus p s).intWaiting
@[simp] theorem portRead_runState (p : Port) (s : State) : (portRead p s).2.runState = s.runState := (portRead_bus p s).runState
@[simp] theorem portRead_ir (p : Port) (s : State) : (portRead p s).2.ir = s.ir := (portRead_bus p s).ir
@[simp] theorem portRead_fetchedAhead (p : Port) (s : State) : (portRead p s).2.fetchedAhead = s.fetchedAhead := (portRead_bus p s).fetchedAhead
@[simp] theorem portRead_mem (p : Port) (s : State) : (portRead p s).2.mem = s.mem := (portRead_bus p s).mem
@[simp] theorem portRead_platform (p : Port) (s : State) : (portRead p s).2.env.platform = s.env.platform := (portRead_bus p s).platform
@[simp] theorem portRead_now (p : Port) (s : State) : (portRead p s).2.env.now = s.env.now := (portRead_bus p s).now
@[simp] theorem portRead_later (p : Port) (s : State) : (portRead p s).2.env.later = s.env.later := (portRead_bus p s).later

/-! `extRead` -/

@[simp] theorem extRead_r0 (d : Byte) (s : State) : (extRead d s).2.r0 = s.r0 := (extRead_bus d s).r0
@[simp] theorem extRead_bank0 (d : Byte) (s : State) : (extRead d s).2.bank0 = s.bank0 := (extRead_bus d s).bank0
@[simp] theorem extRead_bank1 (d : Byte) (s : State) : (extRead d s).2.bank1 = s.bank1 := (extRead_bus d s).bank1
@[simp] theorem extRead_iar (d : Byte) (s : State) : (extRead d s).2.iar = s.iar := (extRead_bus d s).iar
@[simp] theorem extRead_flag (d : Byte) (s : State) : (extRead d s).2.flag = s.flag := (extRead_bus d s).flag
@[simp] theorem extRead_ii (d : Byte) (s : State) : (extRead d s).2.ii = s.ii := (extRead_bus d s).ii
@[simp] theorem extRead_sp (d : Byte) (s : State) : (extRead d s).2.sp = s.sp := (extRead_bus d s).sp
@[simp] theorem extRead_psl (d : Byte) (s : State) : (extRead d s).2.psl = s.psl := (extRead_bus d s).psl
@[simp] theorem extRead_ras (d : Byte) (s : State) : (extRead d s).2.ras = s.ras := (extRead_bus d s).ras
@[simp] theorem extRead_intWaiting (d : Byte) (s : State) : (extRead d s).2.intWaiting = s.intWaiting := (extRead_bus d s).intWaiting
@[simp] theorem extRead_runState (d : Byte) (s : State) : (extRead d s).2.runState = s.runState := (extRead_bus d s).runState
@[simp] theorem extRead_ir (d : Byte) (s : State) : (extRead d s).2.ir = s.ir := (extRead_bus d s).ir
@[simp] theorem extRead_fetchedAhead (d : Byte) (s : State) : (extRead d s).2.fetchedAhead = s.fetchedAhead := (extRead_bus d s).fetchedAhead
@[simp] theorem extRead_mem (d : Byte) (s : State) : (extRead d s).2.mem = s.mem := (extRead_bus d s).mem
@[simp] theorem extRead_platform (d : Byte) (s : State) : (extRead d s).2.env.platform = s.env.platform := (extRead_bus d s).platform
@[simp] theorem extRead_now (d : Byte) (s : State) : (extRead d s).2.env.now = s.env.now := (extRead_bus d s).now
@[simp] theorem extRead_later (d : Byte) (s : State) : (extRead d s).2.env.later = s.env.later := (extRead_bus d s).later

/-! `acknowledge` -/

@[simp] theorem acknowledge_r0 (s : State) : (acknowledge s).2.r0 = s.r0 := (acknowledge_bus s).r0
@[simp] theorem acknowledge_bank0 (s : State) : (acknowledge s).2.bank0 = s.bank0 := (acknowledge_bus s).bank0
@[simp] theorem acknowledge_bank1 (s : State) : (acknowledge s).2.bank1 = s.bank1 := (acknowledge_bus s).bank1
@[simp] theorem acknowledge_iar (s : State) : (acknowledge s).2.iar = s.iar := (acknowledge_bus s).iar
@[simp] theorem acknowledge_flag (s : State) : (acknowledge s).2.flag = s.flag := (acknowledge_bus s).flag
@[simp] theorem acknowledge_ii (s : State) : (acknowledge s).2.ii = s.ii := (acknowledge_bus s).ii
@[simp] theorem acknowledge_sp (s : State) : (acknowledge s).2.sp = s.sp := (acknowledge_bus s).sp
@[simp] theorem acknowledge_psl (s : State) : (acknowledge s).2.psl = s.psl := (acknowledge_bus s).psl
@[simp] theorem acknowledge_ras (s : State) : (acknowledge s).2.ras = s.ras := (acknowledge_bus s).ras
@[simp] theorem acknowledge_intWaiting (s : State) : (acknowledge s).2.intWaiting = s.intWaiting := (acknowledge_bus s).intWaiting
@[simp] theorem acknowledge_runState (s : State) : (acknowledge s).2.runState = s.runState := (acknowledge_bus s).runState
@[simp] theorem acknowledge_ir (s : State) : (acknowledge s).2.ir = s.ir := (acknowledge_bus s).ir
@[simp] theorem acknowledge_fetchedAhead (s : State) : (acknowledge s).2.fetchedAhead = s.fetchedAhead := (acknowledge_bus s).fetchedAhead
@[simp] theorem acknowledge_mem (s : State) : (acknowledge s).2.mem = s.mem := (acknowledge_bus s).mem
@[simp] theorem acknowledge_platform (s : State) : (acknowledge s).2.env.platform = s.env.platform := (acknowledge_bus s).platform
@[simp] theorem acknowledge_now (s : State) : (acknowledge s).2.env.now = s.env.now := (acknowledge_bus s).now
@[simp] theorem acknowledge_later (s : State) : (acknowledge s).2.env.later = s.env.later := (acknowledge_bus s).later

/-! `indirect` -/

@[simp] theorem indirect_r0 (p : Addr) (s : State) : (indirect p s).2.r0 = s.r0 := (indirect_bus p s).r0
@[simp] theorem indirect_bank0 (p : Addr) (s : State) : (indirect p s).2.bank0 = s.bank0 := (indirect_bus p s).bank0
@[simp] theorem indirect_bank1 (p : Addr) (s : State) : (indirect p s).2.bank1 = s.bank1 := (indirect_bus p s).bank1
@[simp] theorem indirect_iar (p : Addr) (s : State) : (indirect p s).2.iar = s.iar := (indirect_bus p s).iar
@[simp] theorem indirect_flag (p : Addr) (s : State) : (indirect p s).2.flag = s.flag := (indirect_bus p s).flag
@[simp] theorem indirect_ii (p : Addr) (s : State) : (indirect p s).2.ii = s.ii := (indirect_bus p s).ii
@[simp] theorem indirect_sp (p : Addr) (s : State) : (indirect p s).2.sp = s.sp := (indirect_bus p s).sp
@[simp] theorem indirect_psl (p : Addr) (s : State) : (indirect p s).2.psl = s.psl := (indirect_bus p s).psl
@[simp] theorem indirect_ras (p : Addr) (s : State) : (indirect p s).2.ras = s.ras := (indirect_bus p s).ras
@[simp] theorem indirect_intWaiting (p : Addr) (s : State) : (indirect p s).2.intWaiting = s.intWaiting := (indirect_bus p s).intWaiting
@[simp] theorem indirect_runState (p : Addr) (s : State) : (indirect p s).2.runState = s.runState := (indirect_bus p s).runState
@[simp] theorem indirect_ir (p : Addr) (s : State) : (indirect p s).2.ir = s.ir := (indirect_bus p s).ir
@[simp] theorem indirect_fetchedAhead (p : Addr) (s : State) : (indirect p s).2.fetchedAhead = s.fetchedAhead := (indirect_bus p s).fetchedAhead
@[simp] theorem indirect_mem (p : Addr) (s : State) : (indirect p s).2.mem = s.mem := (indirect_bus p s).mem
@[simp] theorem indirect_platform (p : Addr) (s : State) : (indirect p s).2.env.platform = s.env.platform := (indirect_bus p s).platform
@[simp] theorem indirect_now (p : Addr) (s : State) : (indirect p s).2.env.now = s.env.now := (indirect_bus p s).now
@[simp] theorem indirect_later (p : Addr) (s : State) : (indirect p s).2.env.later = s.env.later := (indirect_bus p s).later

/-! `through` -/

@[simp] theorem through_r0 (i : Bool) (a : Addr) (s : State) : (through i a s).2.r0 = s.r0 := (through_bus i a s).r0
@[simp] theorem through_bank0 (i : Bool) (a : Addr) (s : State) : (through i a s).2.bank0 = s.bank0 := (through_bus i a s).bank0
@[simp] theorem through_bank1 (i : Bool) (a : Addr) (s : State) : (through i a s).2.bank1 = s.bank1 := (through_bus i a s).bank1
@[simp] theorem through_iar (i : Bool) (a : Addr) (s : State) : (through i a s).2.iar = s.iar := (through_bus i a s).iar
@[simp] theorem through_flag (i : Bool) (a : Addr) (s : State) : (through i a s).2.flag = s.flag := (through_bus i a s).flag
@[simp] theorem through_ii (i : Bool) (a : Addr) (s : State) : (through i a s).2.ii = s.ii := (through_bus i a s).ii
@[simp] theorem through_sp (i : Bool) (a : Addr) (s : State) : (through i a s).2.sp = s.sp := (through_bus i a s).sp
@[simp] theorem through_psl (i : Bool) (a : Addr) (s : State) : (through i a s).2.psl = s.psl := (through_bus i a s).psl
@[simp] theorem through_ras (i : Bool) (a : Addr) (s : State) : (through i a s).2.ras = s.ras := (through_bus i a s).ras
@[simp] theorem through_intWaiting (i : Bool) (a : Addr) (s : State) : (through i a s).2.intWaiting = s.intWaiting := (through_bus i a s).intWaiting
@[simp] theorem through_runState (i : Bool) (a : Addr) (s : State) : (through i a s).2.runState = s.runState := (through_bus i a s).runState
@[simp] theorem through_ir (i : Bool) (a : Addr) (s : State) : (through i a s).2.ir = s.ir := (through_bus i a s).ir
@[simp] theorem through_fetchedAhead (i : Bool) (a : Addr) (s : State) : (through i a s).2.fetchedAhead = s.fetchedAhead := (through_bus i a s).fetchedAhead
@[simp] theorem through_mem (i : Bool) (a : Addr) (s : State) : (through i a s).2.mem = s.mem := (through_bus i a s).mem
@[simp] theorem through_platform (i : Bool) (a : Addr) (s : State) : (through i a s).2.env.platform = s.env.platform := (through_bus i a s).platform
@[simp] theorem through_now (i : Bool) (a : Addr) (s : State) : (through i a s).2.env.now = s.env.now := (through_bus i a s).now
@[simp] theorem through_later (i : Bool) (a : Addr) (s : State) : (through i a s).2.env.later = s.env.later := (through_bus i a s).later

/-! `zeroRelEA` -/

@[simp] theorem zeroRelEA_r0 (a : RelArg) (s : State) : (zeroRelEA a s).2.r0 = s.r0 := (zeroRelEA_bus a s).r0
@[simp] theorem zeroRelEA_bank0 (a : RelArg) (s : State) : (zeroRelEA a s).2.bank0 = s.bank0 := (zeroRelEA_bus a s).bank0
@[simp] theorem zeroRelEA_bank1 (a : RelArg) (s : State) : (zeroRelEA a s).2.bank1 = s.bank1 := (zeroRelEA_bus a s).bank1
@[simp] theorem zeroRelEA_iar (a : RelArg) (s : State) : (zeroRelEA a s).2.iar = s.iar := (zeroRelEA_bus a s).iar
@[simp] theorem zeroRelEA_flag (a : RelArg) (s : State) : (zeroRelEA a s).2.flag = s.flag := (zeroRelEA_bus a s).flag
@[simp] theorem zeroRelEA_ii (a : RelArg) (s : State) : (zeroRelEA a s).2.ii = s.ii := (zeroRelEA_bus a s).ii
@[simp] theorem zeroRelEA_sp (a : RelArg) (s : State) : (zeroRelEA a s).2.sp = s.sp := (zeroRelEA_bus a s).sp
@[simp] theorem zeroRelEA_psl (a : RelArg) (s : State) : (zeroRelEA a s).2.psl = s.psl := (zeroRelEA_bus a s).psl
@[simp] theorem zeroRelEA_ras (a : RelArg) (s : State) : (zeroRelEA a s).2.ras = s.ras := (zeroRelEA_bus a s).ras
@[simp] theorem zeroRelEA_intWaiting (a : RelArg) (s : State) : (zeroRelEA a s).2.intWaiting = s.intWaiting := (zeroRelEA_bus a s).intWaiting
@[simp] theorem zeroRelEA_runState (a : RelArg) (s : State) : (zeroRelEA a s).2.runState = s.runState := (zeroRelEA_bus a s).runState
@[simp] theorem zeroRelEA_ir (a : RelArg) (s : State) : (zeroRelEA a s).2.ir = s.ir := (zeroRelEA_bus a s).ir
@[simp] theorem zeroRelEA_fetchedAhead (a : RelArg) (s : State) : (zeroRelEA a s).2.fetchedAhead = s.fetchedAhead := (zeroRelEA_bus a s).fetchedAhead
@[simp] theorem zeroRelEA_mem (a : RelArg) (s : State) : (zeroRelEA a s).2.mem = s.mem := (zeroRelEA_bus a s).mem
@[simp] theorem zeroRelEA_platform (a : RelArg) (s : State) : (zeroRelEA a s).2.env.platform = s.env.platform := (zeroRelEA_bus a s).platform
@[simp] theorem zeroRelEA_now (a : RelArg) (s : State) : (zeroRelEA a s).2.env.now = s.env.now := (zeroRelEA_bus a s).now
@[simp] theorem zeroRelEA_later (a : RelArg) (s : State) : (zeroRelEA a s).2.env.later = s.env.later := (zeroRelEA_bus a s).later

/-! `relEA` -/

@[simp] theorem relEA_r0 (a : RelArg) (s : State) : (relEA a s).2.r0 = s.r0 := (relEA_bus a s).r0
@[simp] theorem relEA_bank0 (a : RelArg) (s : State) : (relEA a s).2.bank0 = s.bank0 := (relEA_bus a s).bank0
@[simp] theorem relEA_bank1 (a : RelArg) (s : State) : (relEA a s).2.bank1 = s.bank1 := (relEA_bus a s).bank1
@[simp] theorem relEA_iar (a : RelArg) (s : State) : (relEA a s).2.iar = s.iar := (relEA_bus a s).iar
@[simp] theorem relEA_flag (a : RelArg) (s : State) : (relEA a s).2.flag = s.flag := (relEA_bus a s).flag
@[simp] theorem relEA_ii (a : RelArg) (s : State) : (relEA a s).2.ii = s.ii := (relEA_bus a s).ii
@[simp] theorem relEA_sp (a : RelArg) (s : State) : (relEA a s).2.sp = s.sp := (relEA_bus a s).sp
@[simp] theorem relEA_psl (a : RelArg) (s : State) : (relEA a s).2.psl = s.psl := (relEA_bus a s).psl
@[simp] theorem relEA_ras (a : RelArg) (s : State) : (relEA a s).2.ras = s.ras := (relEA_bus a s).ras
@[simp] theorem relEA_intWaiting (a : RelArg) (s : State) : (relEA a s).2.intWaiting = s.intWaiting := (relEA_bus a s).intWaiting
@[simp] theorem relEA_runState (a : RelArg) (s : State) : (relEA a s).2.runState = s.runState := (relEA_bus a s).runState
@[simp] theorem relEA_ir (a : RelArg) (s : State) : (relEA a s).2.ir = s.ir := (relEA_bus a s).ir
@[simp] theorem relEA_fetchedAhead (a : RelArg) (s : State) : (relEA a s).2.fetchedAhead = s.fetchedAhead := (relEA_bus a s).fetchedAhead
@[simp] theorem relEA_mem (a : RelArg) (s : State) : (relEA a s).2.mem = s.mem := (relEA_bus a s).mem
@[simp] theorem relEA_platform (a : RelArg) (s : State) : (relEA a s).2.env.platform = s.env.platform := (relEA_bus a s).platform
@[simp] theorem relEA_now (a : RelArg) (s : State) : (relEA a s).2.env.now = s.env.now := (relEA_bus a s).now
@[simp] theorem relEA_later (a : RelArg) (s : State) : (relEA a s).2.env.later = s.env.later := (relEA_bus a s).later

/-! `branchAbsEA` -/

@[simp] theorem branchAbsEA_r0 (a : BrArg) (s : State) : (branchAbsEA a s).2.r0 = s.r0 := (branchAbsEA_bus a s).r0
@[simp] theorem branchAbsEA_bank0 (a : BrArg) (s : State) : (branchAbsEA a s).2.bank0 = s.bank0 := (branchAbsEA_bus a s).bank0
@[simp] theorem branchAbsEA_bank1 (a : BrArg) (s : State) : (branchAbsEA a s).2.bank1 = s.bank1 := (branchAbsEA_bus a s).bank1
@[simp] theorem branchAbsEA_iar (a : BrArg) (s : State) : (branchAbsEA a s).2.iar = s.iar := (branchAbsEA_bus a s).iar
@[simp] theorem branchAbsEA_flag (a : BrArg) (s : State) : (branchAbsEA a s).2.flag = s.flag := (branchAbsEA_bus a s).flag
@[simp] theorem branchAbsEA_ii (a : BrArg) (s : State) : (branchAbsEA a s).2.ii = s.ii := (branchAbsEA_bus a s).ii
@[simp] theorem branchAbsEA_sp (a : BrArg) (s : State) : (branchAbsEA a s).2.sp = s.sp := (branchAbsEA_bus a s).sp
@[simp] theorem branchAbsEA_psl (a : BrArg) (s : State) : (branchAbsEA a s).2.psl = s.psl := (branchAbsEA_bus a s).psl
@[simp] theorem branchAbsEA_ras (a : BrArg) (s : State) : (branchAbsEA a s).2.ras = s.ras := (branchAbsEA_bus a s).ras
@[simp] theorem branchAbsEA_intWaiting (a : BrArg) (s : State) : (branchAbsEA a s).2.intWaiting = s.intWaiting := (branchAbsEA_bus a s).intWaiting
@[simp] theorem branchAbsEA_runState (a : BrArg) (s : State) : (branchAbsEA a s).2.runState = s.runState := (branchAbsEA_bus a s).runState
@[simp] theorem branchAbsEA_ir (a : BrArg) (s : State) : (branchAbsEA a s).2.ir = s.ir := (branchAbsEA_bus a s).ir
@[simp] theorem branchAbsEA_fetchedAhead (a : BrArg) (s : State) : (branchAbsEA a s).2.fetchedAhead = s.fetchedAhead := (branchAbsEA_bus a s).fetchedAhead
@[simp] theorem branchAbsEA_mem (a : BrArg) (s : State) : (branchAbsEA a s).2.mem = s.mem := (branchAbsEA_bus a s).mem
@[simp] theorem branchAbsEA_platform (a : BrArg) (s : State) : (branchAbsEA a s).2.env.platform = s.env.platform := (branchAbsEA_bus a s).platform
@[simp] theorem branchAbsEA_now (a : BrArg) (s : State) : (branchAbsEA a s).2.env.now = s.env.now := (branchAbsEA_bus a s).now
@[simp] theorem branchAbsEA_later (a : BrArg) (s : State) : (branchAbsEA a s).2.env.later = s.env.later := (branchAbsEA_bus a s).later

/-! `indexedBranchEA` -/

@[simp] theorem indexedBranchEA_r0 (a : BrArg) (s : State) : (indexedBranchEA a s).2.r0 = s.r0 := (indexedBranchEA_bus a s).r0
@[simp] theorem indexedBranchEA_bank0 (a : BrArg) (s : State) : (indexedBranchEA a s).2.bank0 = s.bank0 := (indexedBranchEA_bus a s).bank0
@[simp] theorem indexedBranchEA_bank1 (a : BrArg) (s : State) : (indexedBranchEA a s).2.bank1 = s.bank1 := (indexedBranchEA_bus a s).bank1
@[simp] theorem indexedBranchEA_iar (a : BrArg) (s : State) : (indexedBranchEA a s).2.iar = s.iar := (indexedBranchEA_bus a s).iar
@[simp] theorem indexedBranchEA_flag (a : BrArg) (s : State) : (indexedBranchEA a s).2.flag = s.flag := (indexedBranchEA_bus a s).flag
@[simp] theorem indexedBranchEA_ii (a : BrArg) (s : State) : (indexedBranchEA a s).2.ii = s.ii := (indexedBranchEA_bus a s).ii
@[simp] theorem indexedBranchEA_sp (a : BrArg) (s : State) : (indexedBranchEA a s).2.sp = s.sp := (indexedBranchEA_bus a s).sp
@[simp] theorem indexedBranchEA_psl (a : BrArg) (s : State) : (indexedBranchEA a s).2.psl = s.psl := (indexedBranchEA_bus a s).psl
@[simp] theorem indexedBranchEA_ras (a : BrArg) (s : State) : (indexedBranchEA a s).2.ras = s.ras := (indexedBranchEA_bus a s).ras
@[simp] theorem indexedBranchEA_intWaiting (a : BrArg) (s : State) : (indexedBranchEA a s).2.intWaiting = s.intWaiting := (indexedBranchEA_bus a s).intWaiting
@[simp] theorem indexedBranchEA_runState (a : BrArg) (s : State) : (indexedBranchEA a s).2.runState = s.runState := (indexedBranchEA_bus a s).runState
@[simp] theorem indexedBranchEA_ir (a : BrArg) (s : State) : (indexedBranchEA a s).2.ir = s.ir := (indexedBranchEA_bus a s).ir
@[simp] theorem indexedBranchEA_fetchedAhead (a : BrArg) (s : State) : (indexedBranchEA a s).2.fetchedAhead = s.fetchedAhead := (indexedBranchEA_bus a s).fetchedAhead
@[simp] theorem indexedBranchEA_mem (a : BrArg) (s : State) : (indexedBranchEA a s).2.mem = s.mem := (indexedBranchEA_bus a s).mem
@[simp] theorem indexedBranchEA_platform (a : BrArg) (s : State) : (indexedBranchEA a s).2.env.platform = s.env.platform := (indexedBranchEA_bus a s).platform
@[simp] theorem indexedBranchEA_now (a : BrArg) (s : State) : (indexedBranchEA a s).2.env.now = s.env.now := (indexedBranchEA_bus a s).now
@[simp] theorem indexedBranchEA_later (a : BrArg) (s : State) : (indexedBranchEA a s).2.env.later = s.env.later := (indexedBranchEA_bus a s).later

/-! `relOperand` -/

@[simp] theorem relOperand_r0 (a : RelArg) (s : State) : (relOperand a s).2.r0 = s.r0 := (relOperand_bus a s).r0
@[simp] theorem relOperand_bank0 (a : RelArg) (s : State) : (relOperand a s).2.bank0 = s.bank0 := (relOperand_bus a s).bank0
@[simp] theorem relOperand_bank1 (a : RelArg) (s : State) : (relOperand a s).2.bank1 = s.bank1 := (relOperand_bus a s).bank1
@[simp] theorem relOperand_iar (a : RelArg) (s : State) : (relOperand a s).2.iar = s.iar := (relOperand_bus a s).iar
@[simp] theorem relOperand_flag (a : RelArg) (s : State) : (relOperand a s).2.flag = s.flag := (relOperand_bus a s).flag
@[simp] theorem relOperand_ii (a : RelArg) (s : State) : (relOperand a s).2.ii = s.ii := (relOperand_bus a s).ii
@[simp] theorem relOperand_sp (a : RelArg) (s : State) : (relOperand a s).2.sp = s.sp := (relOperand_bus a s).sp
@[simp] theorem relOperand_psl (a : RelArg) (s : State) : (relOperand a s).2.psl = s.psl := (relOperand_bus a s).psl
@[simp] theorem relOperand_ras (a : RelArg) (s : State) : (relOperand a s).2.ras = s.ras := (relOperand_bus a s).ras
@[simp] theorem relOperand_intWaiting (a : RelArg) (s : State) : (relOperand a s).2.intWaiting = s.intWaiting := (relOperand_bus a s).intWaiting
@[simp] theorem relOperand_runState (a : RelArg) (s : State) : (relOperand a s).2.runState = s.runState := (relOperand_bus a s).runState
@[simp] theorem relOperand_ir (a : RelArg) (s : State) : (relOperand a s).2.ir = s.ir := (relOperand_bus a s).ir
@[simp] theorem relOperand_fetchedAhead (a : RelArg) (s : State) : (relOperand a s).2.fetchedAhead = s.fetchedAhead := (relOperand_bus a s).fetchedAhead
@[simp] theorem relOperand_mem (a : RelArg) (s : State) : (relOperand a s).2.mem = s.mem := (relOperand_bus a s).mem
@[simp] theorem relOperand_platform (a : RelArg) (s : State) : (relOperand a s).2.env.platform = s.env.platform := (relOperand_bus a s).platform
@[simp] theorem relOperand_now (a : RelArg) (s : State) : (relOperand a s).2.env.now = s.env.now := (relOperand_bus a s).now
@[simp] theorem relOperand_later (a : RelArg) (s : State) : (relOperand a s).2.env.later = s.env.later := (relOperand_bus a s).later

/-! `absEA` and `absOperand`: also the index register may have changed -/

@[simp] theorem absEA_psl (x : Reg) (a : AbsArg) (s : State) : (absEA x a s).2.psl = s.psl := (memForm_ea (.abs x a) s).1

theorem absEA_dataFrame (x : Reg) (a : AbsArg) (s : State) : dataFrame s (absEA x a s).2 := (memForm_ea (.abs x a) s).2.1

theorem absOperand_dataFrame (x : Reg) (a : AbsArg) (s : State) : dataFrame s (absOperand x a s).2 :=
  (absEA_dataFrame x a s).trans (memRead_bus _ _).dataFrame

@[simp] theorem absOperand_psl (x : Reg) (a : AbsArg) (s : State) : (absOperand x a s).2.psl = s.psl :=
  (memRead_bus _ _).psl.trans (absEA_psl x a s)

@[simp] theorem absEA_iar (x : Reg) (a : AbsArg) (s : State) : (absEA x a s).2.iar = s.iar := (absEA_dataFrame x a s).1.1
@[simp] theorem absEA_flag (x : Reg) (a : AbsArg) (s : State) : (absEA x a s).2.flag = s.flag := (absEA_dataFrame x a s).1.2.1.1
@[simp] theorem absEA_ii (x : Reg) (a : AbsArg) (s : State) : (absEA x a s).2.ii = s.ii := (absEA_dataFrame x a s).1.2.1.2.1
@[simp] theorem absEA_sp (x : Reg) (a : AbsArg) (s : State) : (absEA x a s).2.sp = s.sp := (absEA_dataFrame x a s).1.2.1.2.2
@[simp] theorem absEA_ras (x : Reg) (a : AbsArg) (s : State) : (absEA x a s).2.ras = s.ras := (absEA_dataFrame x a s).1.2.2.1
@[simp] theorem absEA_intWaiting (x : Reg) (a : AbsArg) (s : State) : (absEA x a s).2.intWaiting = s.intWaiting := (absEA_dataFrame x a s).1.2.2.2.1
@[simp] theorem absEA_runState (x : Reg) (a : AbsArg) (s : State) : (absEA x a s).2.runState = s.runState := (absEA_dataFrame x a s).1.2.2.2.2.1
@[simp] theorem absEA_ir (x : Reg) (a : AbsArg) (s : State) : (absEA x a s).2.ir = s.ir := (absEA_dataFrame x a s).1.2.2.2.2.2.1
@[simp] theorem absEA_fetchedAhead (x : Reg) (a : AbsArg) (s : State) : (absEA x a s).2.fetchedAhead = s.fetchedAhead := (absEA_dataFrame x a s).1.2.2.2.2.2.2.1
@[simp] theorem absEA_platform (x : Reg) (a : AbsArg) (s : State) : (absEA x a s).2.env.platform = s.env.platform := (absEA_dataFrame x a s).1.2.2.2.2.2.2.2.1
@[simp] theorem absEA_now (x : Reg) (a : AbsArg) (s : State) : (absEA x a s).2.env.now = s.env.now := (absEA_dataFrame x a s).1.2.2.2.2.2.2.2.2.1
@[simp] theorem absEA_later (x : Reg) (a : AbsArg) (s : State) : (absEA x a s).2.env.later = s.env.later := (absEA_dataFrame x a s).1.2.2.2.2.2.2.2.2.2

@[simp] theorem absOperand_iar (x : Reg) (a : AbsArg) (s : State) : (absOperand x a s).2.iar = s.iar := (absOperand_dataFrame x a s).1.1
@[simp] theorem absOperand_flag (x : Reg) (a : AbsArg) (s : State) : (absOperand x a s).2.flag = s.flag := (absOperand_dataFrame x a s).1.2.1.1
@[simp] theorem absOperand_ii (x : Reg) (a : AbsArg) (s : State) : (absOperand x a s).2.ii = s.ii := (absOperand_dataFrame x a s).1.2.1.2.1
@[simp] theorem absOperand_sp (x : Reg) (a : AbsArg) (s : State) : (absOperand x a s).2.sp = s.sp := (absOperand_dataFrame x a s).1.2.1.2.2
@[simp] theorem absOperand_ras (x : Reg) (a : AbsArg) (s : State) : (absOperand x a s).2.ras = s.ras := (absOperand_dataFrame x a s).1.2.2.1
@[simp] theorem absOperand_intWaiting (x : Reg) (a : AbsArg) (s : State) : (absOperand x a s).2.intWaiting = s.intWaiting := (absOperand_dataFrame x a s).1.2.2.2.1
@[simp] theorem absOperand_runState (x : Reg) (a : AbsArg) (s : State) : (absOperand x a s).2.runState = s.runState := (absOperand_dataFrame x a s).1.2.2.2.2.1
@[simp] theorem absOperand_ir (x : Reg) (a : AbsArg) (s : State) : (absOperand x a s).2.ir = s.ir := (absOperand_dataFrame x a s).1.2.2.2.2.2.1
@[simp] theorem absOperand_fetchedAhead (x : Reg) (a : AbsArg) (s : State) : (absOperand x a s).2.fetchedAhead = s.fetchedAhead := (absOperand_dataFrame x a s).1.2.2.2.2.2.2.1
@[simp] theorem absOperand_platform (x : Reg) (a : AbsArg) (s : State) : (absOperand x a s).2.env.platform = s.env.platform := (absOperand_dataFrame x a s).1.2.2.2.2.2.2.2.1
@[simp] theorem absOperand_now (x : Reg) (a : AbsArg) (s : State) : (absOperand x a s).2.env.now = s.env.now := (absOperand_dataFrame x a s).1.2.2.2.2.2.2.2.2.1
@[simp] theorem absOperand_later (x : Reg) (a : AbsArg) (s : State) : (absOperand x a s).2.env.later = s.env.later := (absOperand_dataFrame x a s).1.2.2.2.2.2.2.2.2.2

@[simp] theorem absEA_mem (x : Reg) (a : AbsArg) (s : State) : (absEA x a s).2.mem = s.mem := by
  rw [absEA_state]
  rcases stepIndex_cases a.ic x (through a.ind (inPage s.iar a.addr) s).2 with ⟨_, e⟩ | ⟨_, e⟩ <;> rw [e] <;> simp

@[simp] theorem absOperand_mem (x : Reg) (a : AbsArg) (s : State) : (absOperand x a s).2.mem = s.mem :=
  (memRead_bus _ _).mem.trans (absEA_mem x a s)

/-! `memWrite` -/

@[simp] theorem memWrite_r0 (a : Addr) (v : Byte) (s : State) : (memWrite a v s).r0 = s.r0 := by
  rcases memWrite_cases a v s with ⟨_, e⟩ | ⟨_, e⟩ | ⟨_, e⟩ <;> simp [e]
@[simp] theorem memWrite_bank0 (a : Addr) (v : Byte) (s : State) : (memWrite a v s).bank0 = s.bank0 := by
  rcases memWrite_cases a v s with ⟨_, e⟩ | ⟨_, e⟩ | ⟨_, e⟩ <;> simp [e]
@[simp] theorem memWrite_bank1 (a : Addr) (v : Byte) (s : State) : (memWrite a v s).bank1 = s.bank1 := by
  rcases memWrite_cases a v s with ⟨_, e⟩ | ⟨_, e⟩ | ⟨_, e⟩ <;> simp [e]
@[simp] theorem memWrite_iar (a : Addr) (v : Byte) (s : State) : (memWrite a v s).iar = s.iar := by
  rcases memWrite_cases a v s with ⟨_, e⟩ | ⟨_, e⟩ | ⟨_, e⟩ <;> simp [e]
@[simp] theorem memWrite_flag (a : Addr) (v : Byte) (s : State) : (memWrite a v s).flag = s.flag := by
  rcases memWrite_cases a v s with ⟨_, e⟩ | ⟨_, e⟩ | ⟨_, e⟩ <;> simp [e]
@[simp] theorem memWrite_ii (a : Addr) (v : Byte) (s : State) : (memWrite a v s).ii = s.ii := by
  rcases memWrite_cases a v s with ⟨_, e⟩ | ⟨_, e⟩ | ⟨_, e⟩ <;> simp [e]
@[simp] theorem memWrite_sp (a : Addr) (v : Byte) (s : State) : (memWrite a v s).sp = s.sp := by
  rcases memWrite_cases a v s with ⟨_, e⟩ | ⟨_, e⟩ | ⟨_, e⟩ <;> simp [e]
@[simp] theorem memWrite_psl (a : Addr) (v : Byte) (s : State) : (memWrite a v s).psl = s.psl := by
  rcases memWrite_cases a v s with ⟨_, e⟩ | ⟨_, e⟩ | ⟨_, e⟩ <;> simp [e]
@[simp] theorem memWrite_ras (a : Addr) (v : Byte) (s : State) : (memWrite a v s).ras = s.ras := by
  rcases memWrite_cases a v s with ⟨_, e⟩ | ⟨_, e⟩ | ⟨_, e⟩ <;> simp [e]
@[simp] theorem memWrite_intWaiting (a : Addr) (v : Byte) (s : State) : (memWrite a v s).intWaiting = s.intWaiting := by
  rcases memWrite_cases a v s with ⟨_, e⟩ | ⟨_, e⟩ | ⟨_, e⟩ <;> simp [e]
@[simp] theorem memWrite_runState (a : Addr) (v : Byte) (s : State) : (memWrite a v s).runState = s.runState := by
  rcases memWrite_cases a v s with ⟨_, e⟩ | ⟨_, e⟩ | ⟨_, e⟩ <;> simp [e]
@[simp] theorem memWrite_ir (a : Addr) (v : Byte) (s : State) : (memWrite a v s).ir = s.ir := by
  rcases memWrite_cases a v s with ⟨_, e⟩ | ⟨_, e⟩ | ⟨_, e⟩ <;> simp [e]
@[simp] theorem memWrite_fetchedAhead (a : Addr) (v : Byte) (s : State) : (memWrite a v s).fetchedAhead = s.fetchedAhead := by
  rcases memWrite_cases a v s with ⟨_, e⟩ | ⟨_, e⟩ | ⟨_, e⟩ <;> simp [e]
@[simp] theorem memWrite_platform (a : Addr) (v : Byte) (s : State) : (memWrite a v s).env.platform = s.env.platform := by
  rcases memWrite_cases a v s with ⟨_, e⟩ | ⟨_, e⟩ | ⟨_, e⟩ <;> simp [e]
@[simp] theorem memWrite_now (a : Addr) (v : Byte) (s : State) : (memWrite a v s).env.now = s.env.now := by
  rcases memWrite_cases a v s with ⟨_, e⟩ | ⟨_, e⟩ | ⟨_, e⟩ <;> simp [e]
@[simp] theorem memWrite_later (a : Addr) (v : Byte) (s : State) : (memWrite a v s).env.later = s.env.later := by
  rcases memWrite_cases a v s with ⟨_, e⟩ | ⟨_, e⟩ | ⟨_, e⟩ <;> simp [e]

/-! The meanings' shared operations -/

@[simp] theorem loadFrom_psl (r : Reg) (m : Byte × State) : (loadFrom r m).psl = setCC m.2.psl m.1 := rfl
@[simp] theorem loadFrom_iar (r : Reg) (m : Byte × State) : (loadFrom r m).iar = m.2.iar := by simp [loadFrom]
@[simp] theorem loadFrom_flag (r : Reg) (m : Byte × State) : (loadFrom r m).flag = m.2.flag := by simp [loadFrom]
@[simp] theorem loadFrom_ii (r : Reg) (m : Byte × State) : (loadFrom r m).ii = m.2.ii := by simp [loadFrom]
@[simp] theorem loadFrom_sp (r : Reg) (m : Byte × State) : (loadFrom r m).sp = m.2.sp := by simp [loadFrom]
@[simp] theorem loadFrom_ras (r : Reg) (m : Byte × State) : (loadFrom r m).ras = m.2.ras := by simp [loadFrom]
@[simp] theorem loadFrom_intWaiting (r : Reg) (m : Byte × State) : (loadFrom r m).intWaiting = m.2.intWaiting := by simp [loadFrom]
@[simp] theorem loadFrom_runState (r : Reg) (m : Byte × State) : (loadFrom r m).runState = m.2.runState := by simp [loadFrom]
@[simp] theorem loadFrom_ir (r : Reg) (m : Byte × State) : (loadFrom r m).ir = m.2.ir := by simp [loadFrom]
@[simp] theorem loadFrom_fetchedAhead (r : Reg) (m : Byte × State) : (loadFrom r m).fetchedAhead = m.2.fetchedAhead := by simp [loadFrom]
@[simp] theorem loadFrom_mem (r : Reg) (m : Byte × State) : (loadFrom r m).mem = m.2.mem := by simp [loadFrom]
@[simp] theorem loadFrom_env (r : Reg) (m : Byte × State) : (loadFrom r m).env = m.2.env := by simp [loadFrom]

@[simp] theorem addTo_psl (r : Reg) (m : Byte × State) : (addTo r m).psl = (add8 m.2.psl (readReg r m.2) m.1).2 := rfl
@[simp] theorem addTo_iar (r : Reg) (m : Byte × State) : (addTo r m).iar = m.2.iar := by simp [addTo]
@[simp] theorem addTo_flag (r : Reg) (m : Byte × State) : (addTo r m).flag = m.2.flag := by simp [addTo]
@[simp] theorem addTo_ii (r : Reg) (m : Byte × State) : (addTo r m).ii = m.2.ii := by simp [addTo]
@[simp] theorem addTo_sp (r : Reg) (m : Byte × State) : (addTo r m).sp = m.2.sp := by simp [addTo]
@[simp] theorem addTo_ras (r : Reg) (m : Byte × State) : (addTo r m).ras = m.2.ras := by simp [addTo]
@[simp] theorem addTo_intWaiting (r : Reg) (m : Byte × State) : (addTo r m).intWaiting = m.2.intWaiting := by simp [addTo]
@[simp] theorem addTo_runState (r : Reg) (m : Byte × State) : (addTo r m).runState = m.2.runState := by simp [addTo]
@[simp] theorem addTo_ir (r : Reg) (m : Byte × State) : (addTo r m).ir = m.2.ir := by simp [addTo]
@[simp] theorem addTo_fetchedAhead (r : Reg) (m : Byte × State) : (addTo r m).fetchedAhead = m.2.fetchedAhead := by simp [addTo]
@[simp] theorem addTo_mem (r : Reg) (m : Byte × State) : (addTo r m).mem = m.2.mem := by simp [addTo]
@[simp] theorem addTo_env (r : Reg) (m : Byte × State) : (addTo r m).env = m.2.env := by simp [addTo]

@[simp] theorem subFrom_psl (r : Reg) (m : Byte × State) : (subFrom r m).psl = (sub8 m.2.psl (readReg r m.2) m.1).2 := rfl
@[simp] theorem subFrom_iar (r : Reg) (m : Byte × State) : (subFrom r m).iar = m.2.iar := by simp [subFrom]
@[simp] theorem subFrom_flag (r : Reg) (m : Byte × State) : (subFrom r m).flag = m.2.flag := by simp [subFrom]
@[simp] theorem subFrom_ii (r : Reg) (m : Byte × State) : (subFrom r m).ii = m.2.ii := by simp [subFrom]
@[simp] theorem subFrom_sp (r : Reg) (m : Byte × State) : (subFrom r m).sp = m.2.sp := by simp [subFrom]
@[simp] theorem subFrom_ras (r : Reg) (m : Byte × State) : (subFrom r m).ras = m.2.ras := by simp [subFrom]
@[simp] theorem subFrom_intWaiting (r : Reg) (m : Byte × State) : (subFrom r m).intWaiting = m.2.intWaiting := by simp [subFrom]
@[simp] theorem subFrom_runState (r : Reg) (m : Byte × State) : (subFrom r m).runState = m.2.runState := by simp [subFrom]
@[simp] theorem subFrom_ir (r : Reg) (m : Byte × State) : (subFrom r m).ir = m.2.ir := by simp [subFrom]
@[simp] theorem subFrom_fetchedAhead (r : Reg) (m : Byte × State) : (subFrom r m).fetchedAhead = m.2.fetchedAhead := by simp [subFrom]
@[simp] theorem subFrom_mem (r : Reg) (m : Byte × State) : (subFrom r m).mem = m.2.mem := by simp [subFrom]
@[simp] theorem subFrom_env (r : Reg) (m : Byte × State) : (subFrom r m).env = m.2.env := by simp [subFrom]

@[simp] theorem andTo_psl (r : Reg) (m : Byte × State) : (andTo r m).psl = setCC m.2.psl (readReg r m.2 &&& m.1) := rfl
@[simp] theorem andTo_iar (r : Reg) (m : Byte × State) : (andTo r m).iar = m.2.iar := by simp [andTo]
@[simp] theorem andTo_flag (r : Reg) (m : Byte × State) : (andTo r m).flag = m.2.flag := by simp [andTo]
@[simp] theorem andTo_ii (r : Reg) (m : Byte × State) : (andTo r m).ii = m.2.ii := by simp [andTo]
@[simp] theorem andTo_sp (r : Reg) (m : Byte × State) : (andTo r m).sp = m.2.sp := by simp [andTo]
@[simp] theorem andTo_ras (r : Reg) (m : Byte × State) : (andTo r m).ras = m.2.ras := by simp [andTo]
@[simp] theorem andTo_intWaiting (r : Reg) (m : Byte × State) : (andTo r m).intWaiting = m.2.intWaiting := by simp [andTo]
@[simp] theorem andTo_runState (r : Reg) (m : Byte × State) : (andTo r m).runState = m.2.runState := by simp [andTo]
@[simp] theorem andTo_ir (r : Reg) (m : Byte × State) : (andTo r m).ir = m.2.ir := by simp [andTo]
@[simp] theorem andTo_fetchedAhead (r : Reg) (m : Byte × State) : (andTo r m).fetchedAhead = m.2.fetchedAhead := by simp [andTo]
@[simp] theorem andTo_mem (r : Reg) (m : Byte × State) : (andTo r m).mem = m.2.mem := by simp [andTo]
@[simp] theorem andTo_env (r : Reg) (m : Byte × State) : (andTo r m).env = m.2.env := by simp [andTo]

@[simp] theorem iorTo_psl (r : Reg) (m : Byte × State) : (iorTo r m).psl = setCC m.2.psl (readReg r m.2 ||| m.1) := rfl
@[simp] theorem iorTo_iar (r : Reg) (m : Byte × State) : (iorTo r m).iar = m.2.iar := by simp [iorTo]
@[simp] theorem iorTo_flag (r : Reg) (m : Byte × State) : (iorTo r m).flag = m.2.flag := by simp [iorTo]
@[simp] theorem iorTo_ii (r : Reg) (m : Byte × State) : (iorTo r m).ii = m.2.ii := by simp [iorTo]
@[simp] theorem iorTo_sp (r : Reg) (m : Byte × State) : (iorTo r m).sp = m.2.sp := by simp [iorTo]
@[simp] theorem iorTo_ras (r : Reg) (m : Byte × State) : (iorTo r m).ras = m.2.ras := by simp [iorTo]
@[simp] theorem iorTo_intWaiting (r : Reg) (m : Byte × State) : (iorTo r m).intWaiting = m.2.intWaiting := by simp [iorTo]
@[simp] theorem iorTo_runState (r : Reg) (m : Byte × State) : (iorTo r m).runState = m.2.runState := by simp [iorTo]
@[simp] theorem iorTo_ir (r : Reg) (m : Byte × State) : (iorTo r m).ir = m.2.ir := by simp [iorTo]
@[simp] theorem iorTo_fetchedAhead (r : Reg) (m : Byte × State) : (iorTo r m).fetchedAhead = m.2.fetchedAhead := by simp [iorTo]
@[simp] theorem iorTo_mem (r : Reg) (m : Byte × State) : (iorTo r m).mem = m.2.mem := by simp [iorTo]
@[simp] theorem iorTo_env (r : Reg) (m : Byte × State) : (iorTo r m).env = m.2.env := by simp [iorTo]

@[simp] theorem eorTo_psl (r : Reg) (m : Byte × State) : (eorTo r m).psl = setCC m.2.psl (readReg r m.2 ^^^ m.1) := rfl
@[simp] theorem eorTo_iar (r : Reg) (m : Byte × State) : (eorTo r m).iar = m.2.iar := by simp [eorTo]
@[simp] theorem eorTo_flag (r : Reg) (m : Byte × State) : (eorTo r m).flag = m.2.flag := by simp [eorTo]
@[simp] theorem eorTo_ii (r : Reg) (m : Byte × State) : (eorTo r m).ii = m.2.ii := by simp [eorTo]
@[simp] theorem eorTo_sp (r : Reg) (m : Byte × State) : (eorTo r m).sp = m.2.sp := by simp [eorTo]
@[simp] theorem eorTo_ras (r : Reg) (m : Byte × State) : (eorTo r m).ras = m.2.ras := by simp [eorTo]
@[simp] theorem eorTo_intWaiting (r : Reg) (m : Byte × State) : (eorTo r m).intWaiting = m.2.intWaiting := by simp [eorTo]
@[simp] theorem eorTo_runState (r : Reg) (m : Byte × State) : (eorTo r m).runState = m.2.runState := by simp [eorTo]
@[simp] theorem eorTo_ir (r : Reg) (m : Byte × State) : (eorTo r m).ir = m.2.ir := by simp [eorTo]
@[simp] theorem eorTo_fetchedAhead (r : Reg) (m : Byte × State) : (eorTo r m).fetchedAhead = m.2.fetchedAhead := by simp [eorTo]
@[simp] theorem eorTo_mem (r : Reg) (m : Byte × State) : (eorTo r m).mem = m.2.mem := by simp [eorTo]
@[simp] theorem eorTo_env (r : Reg) (m : Byte × State) : (eorTo r m).env = m.2.env := by simp [eorTo]

@[simp] theorem compareWith_psl (r : Reg) (m : Byte × State) : (compareWith r m).psl = withCC m.2.psl (compareCC m.2.psl (readReg r m.2) m.1) := rfl
@[simp] theorem compareWith_iar (r : Reg) (m : Byte × State) : (compareWith r m).iar = m.2.iar := by simp [compareWith]
@[simp] theorem compareWith_flag (r : Reg) (m : Byte × State) : (compareWith r m).flag = m.2.flag := by simp [compareWith]
@[simp] theorem compareWith_ii (r : Reg) (m : Byte × State) : (compareWith r m).ii = m.2.ii := by simp [compareWith]
@[simp] theorem compareWith_sp (r : Reg) (m : Byte × State) : (compareWith r m).sp = m.2.sp := by simp [compareWith]
@[simp] theorem compareWith_ras (r : Reg) (m : Byte × State) : (compareWith r m).ras = m.2.ras := by simp [compareWith]
@[simp] theorem compareWith_intWaiting (r : Reg) (m : Byte × State) : (compareWith r m).intWaiting = m.2.intWaiting := by simp [compareWith]
@[simp] theorem compareWith_runState (r : Reg) (m : Byte × State) : (compareWith r m).runState = m.2.runState := by simp [compareWith]
@[simp] theorem compareWith_ir (r : Reg) (m : Byte × State) : (compareWith r m).ir = m.2.ir := by simp [compareWith]
@[simp] theorem compareWith_fetchedAhead (r : Reg) (m : Byte × State) : (compareWith r m).fetchedAhead = m.2.fetchedAhead := by simp [compareWith]
@[simp] theorem compareWith_mem (r : Reg) (m : Byte × State) : (compareWith r m).mem = m.2.mem := by simp [compareWith]
@[simp] theorem compareWith_env (r : Reg) (m : Byte × State) : (compareWith r m).env = m.2.env := by simp [compareWith]

@[simp] theorem storeAt_iar (r : Reg) (ea : Addr × State) : (storeAt r ea).iar = ea.2.iar := by simp [storeAt]
@[simp] theorem storeAt_flag (r : Reg) (ea : Addr × State) : (storeAt r ea).flag = ea.2.flag := by simp [storeAt]
@[simp] theorem storeAt_ii (r : Reg) (ea : Addr × State) : (storeAt r ea).ii = ea.2.ii := by simp [storeAt]
@[simp] theorem storeAt_sp (r : Reg) (ea : Addr × State) : (storeAt r ea).sp = ea.2.sp := by simp [storeAt]
@[simp] theorem storeAt_psl (r : Reg) (ea : Addr × State) : (storeAt r ea).psl = ea.2.psl := by simp [storeAt]
@[simp] theorem storeAt_ras (r : Reg) (ea : Addr × State) : (storeAt r ea).ras = ea.2.ras := by simp [storeAt]
@[simp] theorem storeAt_intWaiting (r : Reg) (ea : Addr × State) : (storeAt r ea).intWaiting = ea.2.intWaiting := by simp [storeAt]
@[simp] theorem storeAt_runState (r : Reg) (ea : Addr × State) : (storeAt r ea).runState = ea.2.runState := by simp [storeAt]
@[simp] theorem storeAt_ir (r : Reg) (ea : Addr × State) : (storeAt r ea).ir = ea.2.ir := by simp [storeAt]
@[simp] theorem storeAt_fetchedAhead (r : Reg) (ea : Addr × State) : (storeAt r ea).fetchedAhead = ea.2.fetchedAhead := by simp [storeAt]

@[simp] theorem storeAt_platform (r : Reg) (ea : Addr × State) : (storeAt r ea).env.platform = ea.2.env.platform := by simp [storeAt]
@[simp] theorem storeAt_now (r : Reg) (ea : Addr × State) : (storeAt r ea).env.now = ea.2.env.now := by simp [storeAt]
@[simp] theorem storeAt_later (r : Reg) (ea : Addr × State) : (storeAt r ea).env.later = ea.2.env.later := by simp [storeAt]

@[simp] theorem countReg_psl (r : Reg) (d : Byte) (s : State) : (countReg r d s).psl = s.psl := by simp [countReg]
@[simp] theorem countReg_iar (r : Reg) (d : Byte) (s : State) : (countReg r d s).iar = s.iar := by simp [countReg]
@[simp] theorem countReg_flag (r : Reg) (d : Byte) (s : State) : (countReg r d s).flag = s.flag := by simp [countReg]
@[simp] theorem countReg_ii (r : Reg) (d : Byte) (s : State) : (countReg r d s).ii = s.ii := by simp [countReg]
@[simp] theorem countReg_sp (r : Reg) (d : Byte) (s : State) : (countReg r d s).sp = s.sp := by simp [countReg]
@[simp] theorem countReg_ras (r : Reg) (d : Byte) (s : State) : (countReg r d s).ras = s.ras := by simp [countReg]
@[simp] theorem countReg_intWaiting (r : Reg) (d : Byte) (s : State) : (countReg r d s).intWaiting = s.intWaiting := by simp [countReg]
@[simp] theorem countReg_runState (r : Reg) (d : Byte) (s : State) : (countReg r d s).runState = s.runState := by simp [countReg]
@[simp] theorem countReg_ir (r : Reg) (d : Byte) (s : State) : (countReg r d s).ir = s.ir := by simp [countReg]
@[simp] theorem countReg_fetchedAhead (r : Reg) (d : Byte) (s : State) : (countReg r d s).fetchedAhead = s.fetchedAhead := by simp [countReg]
@[simp] theorem countReg_mem (r : Reg) (d : Byte) (s : State) : (countReg r d s).mem = s.mem := by simp [countReg]
@[simp] theorem countReg_env (r : Reg) (d : Byte) (s : State) : (countReg r d s).env = s.env := by simp [countReg]

@[simp] theorem notTaken_relEA_r0 (a : RelArg) (s : State) : (notTaken (relEA a) s).r0 = s.r0 := (notTaken_bus (relEA_bus a s)).r0
@[simp] theorem notTaken_relEA_bank0 (a : RelArg) (s : State) : (notTaken (relEA a) s).bank0 = s.bank0 := (notTaken_bus (relEA_bus a s)).bank0
@[simp] theorem notTaken_relEA_bank1 (a : RelArg) (s : State) : (notTaken (relEA a) s).bank1 = s.bank1 := (notTaken_bus (relEA_bus a s)).bank1
@[simp] theorem notTaken_relEA_iar (a : RelArg) (s : State) : (notTaken (relEA a) s).iar = s.iar := (notTaken_bus (relEA_bus a s)).iar
@[simp] theorem notTaken_relEA_flag (a : RelArg) (s : State) : (notTaken (relEA a) s).flag = s.flag := (notTaken_bus (relEA_bus a s)).flag
@[simp] theorem notTaken_relEA_ii (a : RelArg) (s : State) : (notTaken (relEA a) s).ii = s.ii := (notTaken_bus (relEA_bus a s)).ii
@[simp] theorem notTaken_relEA_sp (a : RelArg) (s : State) : (notTaken (relEA a) s).sp = s.sp := (notTaken_bus (relEA_bus a s)).sp
@[simp] theorem notTaken_relEA_psl (a : RelArg) (s : State) : (notTaken (relEA a) s).psl = s.psl := (notTaken_bus (relEA_bus a s)).psl
@[simp] theorem notTaken_relEA_ras (a : RelArg) (s : State) : (notTaken (relEA a) s).ras = s.ras := (notTaken_bus (relEA_bus a s)).ras
@[simp] theorem notTaken_relEA_intWaiting (a : RelArg) (s : State) : (notTaken (relEA a) s).intWaiting = s.intWaiting := (notTaken_bus (relEA_bus a s)).intWaiting
@[simp] theorem notTaken_relEA_runState (a : RelArg) (s : State) : (notTaken (relEA a) s).runState = s.runState := (notTaken_bus (relEA_bus a s)).runState
@[simp] theorem notTaken_relEA_ir (a : RelArg) (s : State) : (notTaken (relEA a) s).ir = s.ir := (notTaken_bus (relEA_bus a s)).ir
@[simp] theorem notTaken_relEA_fetchedAhead (a : RelArg) (s : State) : (notTaken (relEA a) s).fetchedAhead = s.fetchedAhead := (notTaken_bus (relEA_bus a s)).fetchedAhead
@[simp] theorem notTaken_relEA_mem (a : RelArg) (s : State) : (notTaken (relEA a) s).mem = s.mem := (notTaken_bus (relEA_bus a s)).mem
@[simp] theorem notTaken_relEA_platform (a : RelArg) (s : State) : (notTaken (relEA a) s).env.platform = s.env.platform := (notTaken_bus (relEA_bus a s)).platform
@[simp] theorem notTaken_relEA_now (a : RelArg) (s : State) : (notTaken (relEA a) s).env.now = s.env.now := (notTaken_bus (relEA_bus a s)).now
@[simp] theorem notTaken_relEA_later (a : RelArg) (s : State) : (notTaken (relEA a) s).env.later = s.env.later := (notTaken_bus (relEA_bus a s)).later

@[simp] theorem notTaken_branchAbsEA_r0 (a : BrArg) (s : State) : (notTaken (branchAbsEA a) s).r0 = s.r0 := (notTaken_bus (branchAbsEA_bus a s)).r0
@[simp] theorem notTaken_branchAbsEA_bank0 (a : BrArg) (s : State) : (notTaken (branchAbsEA a) s).bank0 = s.bank0 := (notTaken_bus (branchAbsEA_bus a s)).bank0
@[simp] theorem notTaken_branchAbsEA_bank1 (a : BrArg) (s : State) : (notTaken (branchAbsEA a) s).bank1 = s.bank1 := (notTaken_bus (branchAbsEA_bus a s)).bank1
@[simp] theorem notTaken_branchAbsEA_iar (a : BrArg) (s : State) : (notTaken (branchAbsEA a) s).iar = s.iar := (notTaken_bus (branchAbsEA_bus a s)).iar
@[simp] theorem notTaken_branchAbsEA_flag (a : BrArg) (s : State) : (notTaken (branchAbsEA a) s).flag = s.flag := (notTaken_bus (branchAbsEA_bus a s)).flag
@[simp] theorem notTaken_branchAbsEA_ii (a : BrArg) (s : State) : (notTaken (branchAbsEA a) s).ii = s.ii := (notTaken_bus (branchAbsEA_bus a s)).ii
@[simp] theorem notTaken_branchAbsEA_sp (a : BrArg) (s : State) : (notTaken (branchAbsEA a) s).sp = s.sp := (notTaken_bus (branchAbsEA_bus a s)).sp
@[simp] theorem notTaken_branchAbsEA_psl (a : BrArg) (s : State) : (notTaken (branchAbsEA a) s).psl = s.psl := (notTaken_bus (branchAbsEA_bus a s)).psl
@[simp] theorem notTaken_branchAbsEA_ras (a : BrArg) (s : State) : (notTaken (branchAbsEA a) s).ras = s.ras := (notTaken_bus (branchAbsEA_bus a s)).ras
@[simp] theorem notTaken_branchAbsEA_intWaiting (a : BrArg) (s : State) : (notTaken (branchAbsEA a) s).intWaiting = s.intWaiting := (notTaken_bus (branchAbsEA_bus a s)).intWaiting
@[simp] theorem notTaken_branchAbsEA_runState (a : BrArg) (s : State) : (notTaken (branchAbsEA a) s).runState = s.runState := (notTaken_bus (branchAbsEA_bus a s)).runState
@[simp] theorem notTaken_branchAbsEA_ir (a : BrArg) (s : State) : (notTaken (branchAbsEA a) s).ir = s.ir := (notTaken_bus (branchAbsEA_bus a s)).ir
@[simp] theorem notTaken_branchAbsEA_fetchedAhead (a : BrArg) (s : State) : (notTaken (branchAbsEA a) s).fetchedAhead = s.fetchedAhead := (notTaken_bus (branchAbsEA_bus a s)).fetchedAhead
@[simp] theorem notTaken_branchAbsEA_mem (a : BrArg) (s : State) : (notTaken (branchAbsEA a) s).mem = s.mem := (notTaken_bus (branchAbsEA_bus a s)).mem
@[simp] theorem notTaken_branchAbsEA_platform (a : BrArg) (s : State) : (notTaken (branchAbsEA a) s).env.platform = s.env.platform := (notTaken_bus (branchAbsEA_bus a s)).platform
@[simp] theorem notTaken_branchAbsEA_now (a : BrArg) (s : State) : (notTaken (branchAbsEA a) s).env.now = s.env.now := (notTaken_bus (branchAbsEA_bus a s)).now
@[simp] theorem notTaken_branchAbsEA_later (a : BrArg) (s : State) : (notTaken (branchAbsEA a) s).env.later = s.env.later := (notTaken_bus (branchAbsEA_bus a s)).later

@[simp] theorem branchIf_relEA_r0 (b : Bool) (a : RelArg) (s : State) : (branchIf b (relEA a) s).r0 = s.r0 := by
  cases b <;> simp [branchIf]
@[simp] theorem branchIf_relEA_bank0 (b : Bool) (a : RelArg) (s : State) : (branchIf b (relEA a) s).bank0 = s.bank0 := by
  cases b <;> simp [branchIf]
@[simp] theorem branchIf_relEA_bank1 (b : Bool) (a : RelArg) (s : State) : (branchIf b (relEA a) s).bank1 = s.bank1 := by
  cases b <;> simp [branchIf]
@[simp] theorem branchIf_relEA_flag (b : Bool) (a : RelArg) (s : State) : (branchIf b (relEA a) s).flag = s.flag := by
  cases b <;> simp [branchIf]
@[simp] theorem branchIf_relEA_ii (b : Bool) (a : RelArg) (s : State) : (branchIf b (relEA a) s).ii = s.ii := by
  cases b <;> simp [branchIf]
@[simp] theorem branchIf_relEA_psl (b : Bool) (a : RelArg) (s : State) : (branchIf b (relEA a) s).psl = s.psl := by
  cases b <;> simp [branchIf]
@[simp] theorem branchIf_relEA_intWaiting (b : Bool) (a : RelArg) (s : State) : (branchIf b (relEA a) s).intWaiting = s.intWaiting := by
  cases b <;> simp [branchIf]
@[simp] theorem branchIf_relEA_runState (b : Bool) (a : RelArg) (s : State) : (branchIf b (relEA a) s).runState = s.runState := by
  cases b <;> simp [branchIf]
@[simp] theorem branchIf_relEA_ir (b : Bool) (a : RelArg) (s : State) : (branchIf b (relEA a) s).ir = s.ir := by
  cases b <;> simp [branchIf]
@[simp] theorem branchIf_relEA_fetchedAhead (b : Bool) (a : RelArg) (s : State) : (branchIf b (relEA a) s).fetchedAhead = s.fetchedAhead := by
  cases b <;> simp [branchIf]
@[simp] theorem branchIf_relEA_mem (b : Bool) (a : RelArg) (s : State) : (branchIf b (relEA a) s).mem = s.mem := by
  cases b <;> simp [branchIf]
@[simp] theorem branchIf_relEA_sp (b : Bool) (a : RelArg) (s : State) : (branchIf b (relEA a) s).sp = s.sp := by
  cases b <;> simp [branchIf]
@[simp] theorem branchIf_relEA_ras (b : Bool) (a : RelArg) (s : State) : (branchIf b (relEA a) s).ras = s.ras := by
  cases b <;> simp [branchIf]
@[simp] theorem branchIf_relEA_platform (b : Bool) (a : RelArg) (s : State) : (branchIf b (relEA a) s).env.platform = s.env.platform := by
  cases b <;> simp [branchIf]
@[simp] theorem branchIf_relEA_now (b : Bool) (a : RelArg) (s : State) : (branchIf b (relEA a) s).env.now = s.env.now := by
  cases b <;> simp [branchIf]
@[simp] theorem branchIf_relEA_later (b : Bool) (a : RelArg) (s : State) : (branchIf b (relEA a) s).env.later = s.env.later := by
  cases b <;> simp [branchIf]

@[simp] theorem branchIf_branchAbsEA_r0 (b : Bool) (a : BrArg) (s : State) : (branchIf b (branchAbsEA a) s).r0 = s.r0 := by
  cases b <;> simp [branchIf]
@[simp] theorem branchIf_branchAbsEA_bank0 (b : Bool) (a : BrArg) (s : State) : (branchIf b (branchAbsEA a) s).bank0 = s.bank0 := by
  cases b <;> simp [branchIf]
@[simp] theorem branchIf_branchAbsEA_bank1 (b : Bool) (a : BrArg) (s : State) : (branchIf b (branchAbsEA a) s).bank1 = s.bank1 := by
  cases b <;> simp [branchIf]
@[simp] theorem branchIf_branchAbsEA_flag (b : Bool) (a : BrArg) (s : State) : (branchIf b (branchAbsEA a) s).flag = s.flag := by
  cases b <;> simp [branchIf]
@[simp] theorem branchIf_branchAbsEA_ii (b : Bool) (a : BrArg) (s : State) : (branchIf b (branchAbsEA a) s).ii = s.ii := by
  cases b <;> simp [branchIf]
@[simp] theorem branchIf_branchAbsEA_psl (b : Bool) (a : BrArg) (s : State) : (branchIf b (branchAbsEA a) s).psl = s.psl := by
  cases b <;> simp [branchIf]
@[simp] theorem branchIf_branchAbsEA_intWaiting (b : Bool) (a : BrArg) (s : State) : (branchIf b (branchAbsEA a) s).intWaiting = s.intWaiting := by
  cases b <;> simp [branchIf]
@[simp] theorem branchIf_branchAbsEA_runState (b : Bool) (a : BrArg) (s : State) : (branchIf b (branchAbsEA a) s).runState = s.runState := by
  cases b <;> simp [branchIf]
@[simp] theorem branchIf_branchAbsEA_ir (b : Bool) (a : BrArg) (s : State) : (branchIf b (branchAbsEA a) s).ir = s.ir := by
  cases b <;> simp [branchIf]
@[simp] theorem branchIf_branchAbsEA_fetchedAhead (b : Bool) (a : BrArg) (s : State) : (branchIf b (branchAbsEA a) s).fetchedAhead = s.fetchedAhead := by
  cases b <;> simp [branchIf]
@[simp] theorem branchIf_branchAbsEA_mem (b : Bool) (a : BrArg) (s : State) : (branchIf b (branchAbsEA a) s).mem = s.mem := by
  cases b <;> simp [branchIf]
@[simp] theorem branchIf_branchAbsEA_sp (b : Bool) (a : BrArg) (s : State) : (branchIf b (branchAbsEA a) s).sp = s.sp := by
  cases b <;> simp [branchIf]
@[simp] theorem branchIf_branchAbsEA_ras (b : Bool) (a : BrArg) (s : State) : (branchIf b (branchAbsEA a) s).ras = s.ras := by
  cases b <;> simp [branchIf]
@[simp] theorem branchIf_branchAbsEA_platform (b : Bool) (a : BrArg) (s : State) : (branchIf b (branchAbsEA a) s).env.platform = s.env.platform := by
  cases b <;> simp [branchIf]
@[simp] theorem branchIf_branchAbsEA_now (b : Bool) (a : BrArg) (s : State) : (branchIf b (branchAbsEA a) s).env.now = s.env.now := by
  cases b <;> simp [branchIf]
@[simp] theorem branchIf_branchAbsEA_later (b : Bool) (a : BrArg) (s : State) : (branchIf b (branchAbsEA a) s).env.later = s.env.later := by
  cases b <;> simp [branchIf]

@[simp] theorem callIf_relEA_r0 (b : Bool) (a : RelArg) (s : State) : (callIf b (relEA a) s).r0 = s.r0 := by
  cases b <;> simp [callIf]
@[simp] theorem callIf_relEA_bank0 (b : Bool) (a : RelArg) (s : State) : (callIf b (relEA a) s).bank0 = s.bank0 := by
  cases b <;> simp [callIf]
@[simp] theorem callIf_relEA_bank1 (b : Bool) (a : RelArg) (s : State) : (callIf b (relEA a) s).bank1 = s.bank1 := by
  cases b <;> simp [callIf]
@[simp] theorem callIf_relEA_flag (b : Bool) (a : RelArg) (s : State) : (callIf b (relEA a) s).flag = s.flag := by
  cases b <;> simp [callIf]
@[simp] theorem callIf_relEA_ii (b : Bool) (a : RelArg) (s : State) : (callIf b (relEA a) s).ii = s.ii := by
  cases b <;> simp [callIf]
@[simp] theorem callIf_relEA_psl (b : Bool) (a : RelArg) (s : State) : (callIf b (relEA a) s).psl = s.psl := by
  cases b <;> simp [callIf]
@[simp] theorem callIf_relEA_intWaiting (b : Bool) (a : RelArg) (s : State) : (callIf b (relEA a) s).intWaiting = s.intWaiting := by
  cases b <;> simp [callIf]
@[simp] theorem callIf_relEA_runState (b : Bool) (a : RelArg) (s : State) : (callIf b (relEA a) s).runState = s.runState := by
  cases b <;> simp [callIf]
@[simp] theorem callIf_relEA_ir (b : Bool) (a : RelArg) (s : State) : (callIf b (relEA a) s).ir = s.ir := by
  cases b <;> simp [callIf]
@[simp] theorem callIf_relEA_fetchedAhead (b : Bool) (a : RelArg) (s : State) : (callIf b (relEA a) s).fetchedAhead = s.fetchedAhead := by
  cases b <;> simp [callIf]
@[simp] theorem callIf_relEA_mem (b : Bool) (a : RelArg) (s : State) : (callIf b (relEA a) s).mem = s.mem := by
  cases b <;> simp [callIf]
@[simp] theorem callIf_relEA_platform (b : Bool) (a : RelArg) (s : State) : (callIf b (relEA a) s).env.platform = s.env.platform := by
  cases b <;> simp [callIf]
@[simp] theorem callIf_relEA_now (b : Bool) (a : RelArg) (s : State) : (callIf b (relEA a) s).env.now = s.env.now := by
  cases b <;> simp [callIf]
@[simp] theorem callIf_relEA_later (b : Bool) (a : RelArg) (s : State) : (callIf b (relEA a) s).env.later = s.env.later := by
  cases b <;> simp [callIf]

@[simp] theorem callIf_branchAbsEA_r0 (b : Bool) (a : BrArg) (s : State) : (callIf b (branchAbsEA a) s).r0 = s.r0 := by
  cases b <;> simp [callIf]
@[simp] theorem callIf_branchAbsEA_bank0 (b : Bool) (a : BrArg) (s : State) : (callIf b (branchAbsEA a) s).bank0 = s.bank0 := by
  cases b <;> simp [callIf]
@[simp] theorem callIf_branchAbsEA_bank1 (b : Bool) (a : BrArg) (s : State) : (callIf b (branchAbsEA a) s).bank1 = s.bank1 := by
  cases b <;> simp [callIf]
@[simp] theorem callIf_branchAbsEA_flag (b : Bool) (a : BrArg) (s : State) : (callIf b (branchAbsEA a) s).flag = s.flag := by
  cases b <;> simp [callIf]
@[simp] theorem callIf_branchAbsEA_ii (b : Bool) (a : BrArg) (s : State) : (callIf b (branchAbsEA a) s).ii = s.ii := by
  cases b <;> simp [callIf]
@[simp] theorem callIf_branchAbsEA_psl (b : Bool) (a : BrArg) (s : State) : (callIf b (branchAbsEA a) s).psl = s.psl := by
  cases b <;> simp [callIf]
@[simp] theorem callIf_branchAbsEA_intWaiting (b : Bool) (a : BrArg) (s : State) : (callIf b (branchAbsEA a) s).intWaiting = s.intWaiting := by
  cases b <;> simp [callIf]
@[simp] theorem callIf_branchAbsEA_runState (b : Bool) (a : BrArg) (s : State) : (callIf b (branchAbsEA a) s).runState = s.runState := by
  cases b <;> simp [callIf]
@[simp] theorem callIf_branchAbsEA_ir (b : Bool) (a : BrArg) (s : State) : (callIf b (branchAbsEA a) s).ir = s.ir := by
  cases b <;> simp [callIf]
@[simp] theorem callIf_branchAbsEA_fetchedAhead (b : Bool) (a : BrArg) (s : State) : (callIf b (branchAbsEA a) s).fetchedAhead = s.fetchedAhead := by
  cases b <;> simp [callIf]
@[simp] theorem callIf_branchAbsEA_mem (b : Bool) (a : BrArg) (s : State) : (callIf b (branchAbsEA a) s).mem = s.mem := by
  cases b <;> simp [callIf]
@[simp] theorem callIf_branchAbsEA_platform (b : Bool) (a : BrArg) (s : State) : (callIf b (branchAbsEA a) s).env.platform = s.env.platform := by
  cases b <;> simp [callIf]
@[simp] theorem callIf_branchAbsEA_now (b : Bool) (a : BrArg) (s : State) : (callIf b (branchAbsEA a) s).env.now = s.env.now := by
  cases b <;> simp [callIf]
@[simp] theorem callIf_branchAbsEA_later (b : Bool) (a : BrArg) (s : State) : (callIf b (branchAbsEA a) s).env.later = s.env.later := by
  cases b <;> simp [callIf]

end Sys2Proof
end

