-- ==== Sys2Proof/Laws/PerInstr.lean ====
section
/-! SUPPORT. The family EncodedLength, one lemma per instruction: the first byte of a well-formed instruction's encoding determines how many bytes it has (30_encoding.md R100, R124). -/

namespace Sys2Proof.Laws.EncodedLength

open Sys2Proof

/-- The length that byte 0 of the encoding stands for is the encoding's length (30_encoding.md R124). -/
def Statement (i : Instr) : Prop :=
  i.wellFormed = true → ∃ b0 rest, encode i = b0 :: rest ∧ instrLength b0 = .ok (encode i).length

/-- A one-byte instruction. -/
theorem one {i : Instr} {b0 : Byte} (h : encode i = [b0]) (hl : i.wellFormed = true → instrLength b0 = .ok 1) : Statement i :=
  fun hw => ⟨b0, [], h, by rw [h]; exact hl hw⟩

/-- A two-byte instruction. -/
theorem two {i : Instr} {b0 b1 : Byte} (h : encode i = [b0, b1]) (hl : i.wellFormed = true → instrLength b0 = .ok 2) : Statement i :=
  fun hw => ⟨b0, [b1], h, by rw [h]; exact hl hw⟩

/-- A three-byte instruction. -/
theorem three {i : Instr} {b0 b1 b2 : Byte} (h : encode i = [b0, b1, b2]) (hl : i.wellFormed = true → instrLength b0 = .ok 3) : Statement i :=
  fun hw => ⟨b0, [b1, b2], h, by rw [h]; exact hl hw⟩

/-- The four condition values. -/
theorem condVal_cases (v : CondVal) : v = 0 ∨ v = 1 ∨ v = 2 ∨ v = 3 := by revert v; decide

theorem lodz (r : Reg) : Statement (.lodz r) :=
  one rfl fun h => by cases r <;> first | rfl | exact absurd h (by decide)

theorem lodi (r : Reg) (v : Byte) : Statement (.lodi r v) :=
  two rfl fun _ => by cases r <;> rfl

theorem lodr (r : Reg) (a : RelArg) : Statement (.lodr r a) :=
  two rfl fun _ => by cases r <;> rfl

theorem loda (r : Reg) (a : AbsArg) : Statement (.loda r a) :=
  three rfl fun _ => by cases r <;> rfl

theorem strz (r : Reg) : Statement (.strz r) :=
  one rfl fun _ => by cases r <;> rfl

theorem strr (r : Reg) (a : RelArg) : Statement (.strr r a) :=
  two rfl fun _ => by cases r <;> rfl

theorem stra (r : Reg) (a : AbsArg) : Statement (.stra r a) :=
  three rfl fun _ => by cases r <;> rfl

theorem addz (r : Reg) : Statement (.addz r) :=
  one rfl fun _ => by cases r <;> rfl

theorem addi (r : Reg) (v : Byte) : Statement (.addi r v) :=
  two rfl fun _ => by cases r <;> rfl

theorem addr (r : Reg) (a : RelArg) : Statement (.addr r a) :=
  two rfl fun _ => by cases r <;> rfl

theorem adda (r : Reg) (a : AbsArg) : Statement (.adda r a) :=
  three rfl fun _ => by cases r <;> rfl

theorem subz (r : Reg) : Statement (.subz r) :=
  one rfl fun _ => by cases r <;> rfl

theorem subi (r : Reg) (v : Byte) : Statement (.subi r v) :=
  two rfl fun _ => by cases r <;> rfl

theorem subr (r : Reg) (a : RelArg) : Statement (.subr r a) :=
  two rfl fun _ => by cases r <;> rfl

theorem suba (r : Reg) (a : AbsArg) : Statement (.suba r a) :=
  three rfl fun _ => by cases r <;> rfl

theorem andz (r : Reg) : Statement (.andz r) :=
  one rfl fun _ => by cases r <;> rfl

theorem andi (r : Reg) (v : Byte) : Statement (.andi r v) :=
  two rfl fun _ => by cases r <;> rfl

theorem andr (r : Reg) (a : RelArg) : Statement (.andr r a) :=
  two rfl fun _ => by cases r <;> rfl

theorem anda (r : Reg) (a : AbsArg) : Statement (.anda r a) :=
  three rfl fun _ => by cases r <;> rfl

theorem iorz (r : Reg) : Statement (.iorz r) :=
  one rfl fun _ => by cases r <;> rfl

theorem iori (r : Reg) (v : Byte) : Statement (.iori r v) :=
  two rfl fun _ => by cases r <;> rfl

theorem iorr (r : Reg) (a : RelArg) : Statement (.iorr r a) :=
  two rfl fun _ => by cases r <;> rfl

theorem iora (r : Reg) (a : AbsArg) : Statement (.iora r a) :=
  three rfl fun _ => by cases r <;> rfl

theorem eorz (r : Reg) : Statement (.eorz r) :=
  one rfl fun _ => by cases r <;> rfl

theorem eori (r : Reg) (v : Byte) : Statement (.eori r v) :=
  two rfl fun _ => by cases r <;> rfl

theorem eorr (r : Reg) (a : RelArg) : Statement (.eorr r a) :=
  two rfl fun _ => by cases r <;> rfl

theorem eora (r : Reg) (a : AbsArg) : Statement (.eora r a) :=
  three rfl fun _ => by cases r <;> rfl

theorem comz (r : Reg) : Statement (.comz r) :=
  one rfl fun _ => by cases r <;> rfl

theorem comi (r : Reg) (v : Byte) : Statement (.comi r v) :=
  two rfl fun _ => by cases r <;> rfl

theorem comr (r : Reg) (a : RelArg) : Statement (.comr r a) :=
  two rfl fun _ => by cases r <;> rfl

theorem coma (r : Reg) (a : AbsArg) : Statement (.coma r a) :=
  three rfl fun _ => by cases r <;> rfl

theorem rrl (r : Reg) : Statement (.rrl r) :=
  one rfl fun _ => by cases r <;> rfl

theorem rrr (r : Reg) : Statement (.rrr r) :=
  one rfl fun _ => by cases r <;> rfl

theorem lpsu : Statement .lpsu :=
  one rfl fun _ => rfl

theorem lpsl : Statement .lpsl :=
  one rfl fun _ => rfl

theorem spsu : Statement .spsu :=
  one rfl fun _ => rfl

theorem spsl : Statement .spsl :=
  one rfl fun _ => rfl

theorem ppsu (v : Byte) : Statement (.ppsu v) :=
  two rfl fun _ => rfl

theorem ppsl (v : Byte) : Statement (.ppsl v) :=
  two rfl fun _ => rfl

theorem cpsu (v : Byte) : Statement (.cpsu v) :=
  two rfl fun _ => rfl

theorem cpsl (v : Byte) : Statement (.cpsl v) :=
  two rfl fun _ => rfl

theorem tpsu (v : Byte) : Statement (.tpsu v) :=
  two rfl fun _ => rfl

theorem tpsl (v : Byte) : Statement (.tpsl v) :=
  two rfl fun _ => rfl

theorem zbrr (a : RelArg) : Statement (.zbrr a) :=
  two rfl fun _ => rfl

theorem bctr (v : CondVal) (a : RelArg) : Statement (.bctr v a) :=
  two rfl fun _ => by rcases condVal_cases v with rfl | rfl | rfl | rfl <;> rfl

theorem bcta (v : CondVal) (a : BrArg) : Statement (.bcta v a) :=
  three rfl fun _ => by rcases condVal_cases v with rfl | rfl | rfl | rfl <;> rfl

theorem bcfr (v : CondVal) (a : RelArg) : Statement (.bcfr v a) :=
  two rfl fun _ => by rcases condVal_cases v with rfl | rfl | rfl | rfl <;> rfl

theorem bcfa (v : CondVal) (a : BrArg) : Statement (.bcfa v a) :=
  three rfl fun _ => by rcases condVal_cases v with rfl | rfl | rfl | rfl <;> rfl

theorem birr (r : Reg) (a : RelArg) : Statement (.birr r a) :=
  two rfl fun _ => by cases r <;> rfl

theorem bira (r : Reg) (a : BrArg) : Statement (.bira r a) :=
  three rfl fun _ => by cases r <;> rfl

theorem bdrr (r : Reg) (a : RelArg) : Statement (.bdrr r a) :=
  two rfl fun _ => by cases r <;> rfl

theorem bdra (r : Reg) (a : BrArg) : Statement (.bdra r a) :=
  three rfl fun _ => by cases r <;> rfl

theorem brnr (r : Reg) (a : RelArg) : Statement (.brnr r a) :=
  two rfl fun _ => by cases r <;> rfl

theorem brna (r : Reg) (a : BrArg) : Statement (.brna r a) :=
  three rfl fun _ => by cases r <;> rfl

theorem bxa (a : BrArg) : Statement (.bxa a) :=
  three rfl fun _ => rfl

theorem zbsr (a : RelArg) : Statement (.zbsr a) :=
  two rfl fun _ => rfl

theorem bstr (v : CondVal) (a : RelArg) : Statement (.bstr v a) :=
  two rfl fun _ => by rcases condVal_cases v with rfl | rfl | rfl | rfl <;> rfl

theorem bsta (v : CondVal) (a : BrArg) : Statement (.bsta v a) :=
  three rfl fun _ => by rcases condVal_cases v with rfl | rfl | rfl | rfl <;> rfl

theorem bsfr (v : CondVal) (a : RelArg) : Statement (.bsfr v a) :=
  two rfl fun _ => by rcases condVal_cases v with rfl | rfl | rfl | rfl <;> rfl

theorem bsfa (v : CondVal) (a : BrArg) : Statement (.bsfa v a) :=
  three rfl fun _ => by rcases condVal_cases v with rfl | rfl | rfl | rfl <;> rfl

theorem bsnr (r : Reg) (a : RelArg) : Statement (.bsnr r a) :=
  two rfl fun _ => by cases r <;> rfl

theorem bsna (r : Reg) (a : BrArg) : Statement (.bsna r a) :=
  three rfl fun _ => by cases r <;> rfl

theorem bsxa (a : BrArg) : Statement (.bsxa a) :=
  three rfl fun _ => rfl

theorem retc (v : CondVal) : Statement (.retc v) :=
  one rfl fun _ => by rcases condVal_cases v with rfl | rfl | rfl | rfl <;> rfl

theorem rete (v : CondVal) : Statement (.rete v) :=
  one rfl fun _ => by rcases condVal_cases v with rfl | rfl | rfl | rfl <;> rfl

theorem redd (r : Reg) : Statement (.redd r) :=
  one rfl fun _ => by cases r <;> rfl

theorem redc (r : Reg) : Statement (.redc r) :=
  one rfl fun _ => by cases r <;> rfl

theorem rede (r : Reg) (v : Byte) : Statement (.rede r v) :=
  two rfl fun _ => by cases r <;> rfl

theorem wrtd (r : Reg) : Statement (.wrtd r) :=
  one rfl fun _ => by cases r <;> rfl

theorem wrtc (r : Reg) : Statement (.wrtc r) :=
  one rfl fun _ => by cases r <;> rfl

theorem wrte (r : Reg) (v : Byte) : Statement (.wrte r v) :=
  two rfl fun _ => by cases r <;> rfl

theorem nop : Statement .nop :=
  one rfl fun _ => rfl

theorem tmi (r : Reg) (v : Byte) : Statement (.tmi r v) :=
  two rfl fun _ => by cases r <;> rfl

theorem dar (r : Reg) : Statement (.dar r) :=
  one rfl fun _ => by cases r <;> rfl

theorem halt : Statement .halt :=
  one rfl fun _ => rfl

end Sys2Proof.Laws.EncodedLength
end

