-- ==== Sys2Proof/Laws/Step.lean ====
section
/-! SUPPORT. What each part of a step can do, said once: the passage to the next inputs, fetching, running a decoded instruction, interrupt entry, RESET, the PAUSE wait; and which of them a boundary takes. -/

namespace Sys2Proof

open Sys2Proof.Machine

/-! The environment's next inputs -/

@[simp] theorem advance_platform (e : Env) : e.advance.platform = e.platform := by simp only [Env.advance]; split <;> rfl
@[simp] theorem advance_devices (e : Env) : e.advance.devices = e.devices := by simp only [Env.advance]; split <;> rfl
@[simp] theorem advance_ops (e : Env) : e.advance.ops = e.ops := by simp only [Env.advance]; split <;> rfl
@[simp] theorem advance_draws (e : Env) : e.advance.draws = e.draws := by simp only [Env.advance]; split <;> rfl

@[simp] theorem endStep_next (s : State) : endStep (.next s) = .next { s with env := s.env.advance } := rfl

/-- A step that ends in a next state came from a boundary that did, the environment's inputs moved on. -/
theorem endStep_eq_next {r : Result} {t : State} (h : endStep r = .next t) :
    ∃ u, r = .next u ∧ t = { u with env := u.env.advance } := by
  cases r with
  | next u => cases h; exact ⟨u, rfl, rfl⟩
  | fault f => cases h
  | refused f => cases h

/-- What stands behind an address depends on the platform alone. -/
theorem kindAt_congr {e f : Env} (h : e.platform = f.platform) (a : Addr) : e.kindAt a = f.kindAt a := by
  simp only [Env.kindAt, h]

/-! Addresses in a page -/

@[simp] theorem forward_one (a : Addr) : forward a 1 = nextInPage a := rfl

theorem forward_toNat (p : Addr) (n : Nat) : (forward p n).toNat = 8192 * (p.toNat / 8192) + (p.toNat % 8192 + n) % 8192 := by
  rw [forward, inPage_toNat, BitVec.toNat_add, offsetOf_toNat, BitVec.toNat_ofNat]
  omega

@[simp] theorem forward_zero (a : Addr) : forward a 0 = a := by
  apply BitVec.eq_of_toNat_eq
  rw [forward_toNat]
  omega

theorem forward_nextInPage (a : Addr) (n : Nat) : forward (nextInPage a) n = forward a (n + 1) := by
  apply BitVec.eq_of_toNat_eq
  rw [← forward_one]
  simp only [forward_toNat]
  omega

/-! Fetching -/

theorem fetchByte_plain {s : State} (h : plainAt s s.iar) :
    fetchByte s = (s.peek s.iar, { s with iar := nextInPage s.iar }) := by
  simp only [fetchByte, memRead_plain h]

/-- Fetching a byte does a bus read and moves IAR in its page, no more. -/
theorem fetchByte_bus (s : State) : BusOnly { s with iar := nextInPage s.iar } (fetchByte s).2 := by
  have h := memRead_bus s.iar s
  refine ⟨?_, h.2⟩
  simp only [fetchByte]
  conv_lhs => rw [h.1]

/-- What memory holds from an address on depends on memory and the platform alone. -/
theorem holdsAt_congr {s t : State} (hm : t.mem = s.mem) (he : t.env.platform = s.env.platform) :
    ∀ (bs : List Byte) (a : Addr), holdsAt s a bs → holdsAt t a bs := by
  intro bs
  induction bs with
  | nil => intro a _; trivial
  | cons b bs ih =>
    intro a h
    refine ⟨?_, ?_, ih _ h.2.2⟩
    · simpa only [plainAt, kindAt_congr he a] using h.1
    · simpa only [State.peek, hm] using h.2.1

/-- Running from a first byte whose instruction plain memory goes on with: the meaning of that instruction, with IAR past its bytes (30_encoding.md R100). -/
theorem runDecoded_of_decode {i : Instr} {b0 : Byte} {bs : List Byte} (addr : Addr) {s : State}
    (hd : decode (b0 :: bs) = .ok (i, [])) (h : holdsAt s s.iar bs) (hl : bs.length ≤ 2) :
    runDecoded addr b0 s = exec i { s with iar := forward s.iar bs.length } := by
  obtain ⟨n, hn, hle, hi, hr⟩ := decode_cons_eq_ok hd
  have hlen : n = bs.length + 1 := by
    have h1 := (decodeBytes_of_length hn).1
    have h2 := congrArg List.length hr
    simp only [List.length_nil, List.length_drop] at h2
    omega
  subst hlen
  simp only [runDecoded, hn]
  rcases bs with _ | ⟨b1, _ | ⟨b2, _ | ⟨b3, c⟩⟩⟩
  · have hi : decodeBytes b0 0#8 0#8 = .ok i := hi
    simp [fetchWhen, hi]
  · simp only [holdsAt] at h
    have hi : decodeBytes b0 b1 0#8 = .ok i := hi
    simp [fetchWhen, fetchByte_plain h.1, h.2.1, hi]
  · simp only [holdsAt] at h
    simp only [List.getD_cons_zero, List.getD_cons_succ] at hi
    have hp : plainAt { s with iar := nextInPage s.iar } (nextInPage s.iar) := h.2.2.1
    have hq : State.peek { s with iar := nextInPage s.iar } (nextInPage s.iar) = b2 := h.2.2.2.1
    simp [fetchWhen, fetchByte_plain h.1, h.2.1, fetchByte_plain (s := { s with iar := nextInPage s.iar }) hp, hq, hi]
    rw [← forward_nextInPage, forward_one]
  · simp at hl

/-! The interrupt -/

/-- Everything an interrupt entry does to the processor (60_exceptions.md R346, R347). -/
theorem interruptEntry_eq (s : State) : ∃ e : Env,
    interruptEntry s = { s with
      runState := .run, ii := true, intWaiting := false, ir := 0xBB, env := e
      iar := (interruptEntry s).iar, sp := s.sp + 1, ras := rasSet s.ras (s.sp + 1) s.iar } ∧
    e.platform = s.env.platform ∧ e.now = s.env.now ∧ e.later = s.env.later := by
  let s1 : State := { s with runState := .run, ii := true, intWaiting := false, ir := 0xBB }
  have b : BusOnly s1 (zeroRelEA (RelArg.ofByte (acknowledge s1).1) (acknowledge s1).2).2 :=
    (acknowledge_bus s1).trans (zeroRelEA_bus _ _)
  refine ⟨(interruptEntry s).env, ?_, b.platform, b.now, b.later⟩
  simp only [interruptEntry, pushAndBranch]
  rw [b.sp, b.ras, b.iar]
  have h := b.1
  conv_lhs => rw [h]

/-- A push seen as the two fields it writes. -/
theorem pushed_of_fields {s t : State} {a : Addr} (h1 : t.sp = s.sp + 1) (h2 : t.ras = rasSet s.ras (s.sp + 1) a) :
    pushed a s t := by
  obtain ⟨a1, a2, a3⟩ := pushed_pushAndBranch (s.iar, { s with iar := a })
  exact ⟨by rw [h1]; exact a1, by rw [h2, h1]; exact a2, fun i hi => by rw [h2]; rw [h1] at hi; exact a3 i hi⟩

/-- The early read of the return address is a bus read at most (60_exceptions.md R358). -/
theorem discardedFetch_cases (s : State) :
    (s.fetchedAhead = false ∧ discardedFetch s = s) ∨
    (s.fetchedAhead = true ∧ discardedFetch s = { (memRead s.iar s).2 with ir := (memRead s.iar s).1 }) := by
  unfold discardedFetch prefetch
  cases s.fetchedAhead <;> simp

/-- Entering an interrupt in the RUN state does what the entry does, after the early read of the return address. -/
theorem interruptEntry_discarded (s : State) : ∃ e : Env,
    interruptEntry (discardedFetch s) = { s with
      runState := .run, ii := true, intWaiting := false, ir := 0xBB, env := e
      iar := (interruptEntry (discardedFetch s)).iar, sp := s.sp + 1, ras := rasSet s.ras (s.sp + 1) s.iar } ∧
    e.platform = s.env.platform ∧ e.now = s.env.now ∧ e.later = s.env.later := by
  obtain ⟨e, h, hp, hn, hl⟩ := interruptEntry_eq (discardedFetch s)
  rcases discardedFetch_cases s with ⟨_, c⟩ | ⟨_, c⟩
  · rw [c] at h hp hn hl ⊢
    exact ⟨e, h, hp, hn, hl⟩
  · have b := memRead_bus s.iar s
    refine ⟨e, ?_, hp.trans ?_, hn.trans ?_, hl.trans ?_⟩
    · have k : discardedFetch s = { s with ir := (memRead s.iar s).1, env := (memRead s.iar s).2.env } := by
        rw [c]
        conv_lhs => rw [b.1]
      rw [k] at h ⊢
      exact h
    all_goals rw [c]
    · exact b.platform
    · exact b.now
    · exact b.later

/-! A first byte with no mnemonic -/

/-- What follows such a byte where any state may: the processor is open, and outside it only external operations happened (92_eei_decisions.md D1, D2). -/
theorem anyState_outside (s : State) : ∃ f : AnyState,
    (anyState s).mem = (performAll f.ops (countDraw s)).mem ∧ (anyState s).env = (performAll f.ops (countDraw s)).env ∧
    (anyState s).env.platform = s.env.platform ∧ (anyState s).env.now = s.env.now ∧ (anyState s).env.later = s.env.later := by
  obtain ⟨_, h1, h2, h3⟩ := performAll_outside (Config.anyState s.env.draws).ops (countDraw s)
  exact ⟨Config.anyState s.env.draws, rfl, rfl, h1, h2, h3⟩

/-! DMA in a PAUSE wait -/

/-- DMA writes change nothing but memory. -/
theorem dmaWrites_eq (ws : List (Addr × Byte)) (s : State) : dmaWrites ws s = { s with mem := (dmaWrites ws s).mem } := by
  induction ws generalizing s with
  | nil => rfl
  | cons w ws ih =>
    have h : dmaWrite w s = { s with mem := (dmaWrite w s).mem } := by
      unfold dmaWrite
      split <;> rfl
    simp only [dmaWrites]
    rw [ih, h]

/-! Which part of a step a boundary takes (60_exceptions.md R345, R353) -/

theorem step_reset {s : State} (h : s.env.now.reset = true) (h0 : s.env.now.resetAfter = 0) :
    step s = .next { takeReset s with env := (takeReset s).env.advance } := by
  simp only [step, boundary, h, resetStep, h0]
  rfl

/-- RESET in the middle of a step (70_reset_and_hazards.md R380). -/
theorem step_abandoned {s t : State} (h : s.env.now.reset = true) (h0 : s.env.now.resetAfter ≠ 0)
    (ht : undisturbed s = .next t) :
    step s = .next { takeReset (abandonAt s.env.now.resetAfter s t) with
      env := (takeReset (abandonAt s.env.now.resetAfter s t)).env.advance } := by
  obtain ⟨n, hn⟩ := Nat.exists_eq_succ_of_ne_zero h0
  simp only [step, boundary, h, resetStep, hn, ht]
  rfl

/-- What abandoning a step leaves: the first operations of it, and the memory of before or of after. -/
theorem abandonAt_cases (n : Nat) (s t : State) :
    ((newOps s t).length < n ∧ abandonAt n s t = t) ∨
    (n ≤ (newOps s t).length ∧ (abandonAt n s t).mem = s.mem ∧ (abandonAt n s t).runState = t.runState ∧
      (abandonAt n s t).env.ops = ((newOps s t).take n).reverse ++ s.env.ops ∧ pinsKept s (abandonAt n s t)) := by
  unfold abandonAt
  by_cases h : (newOps s t).length < n
  · exact .inl ⟨h, by simp [h]⟩
  · exact .inr (by simp [h, pinsKept]; omega)

theorem step_undisturbed {s : State} (h : s.env.now.reset = false) : step s = endStep (undisturbed s) := by
  simp only [step, boundary, h]
  rfl

theorem step_pause {s : State} (hr : s.runState = .run) (h0 : s.env.now.reset = false) (h1 : s.env.now.pause = true) :
    step s = .next { enterPause s with env := (enterPause s).env.advance } := by
  simp only [step_undisturbed h0, undisturbed, hr, runStep, h1]
  rfl

theorem step_interrupt {s : State} (h0 : s.env.now.reset = false) (hi : interruptAccepted s = true)
    (hr : s.runState = .run) (hp : s.env.now.pause = false) :
    step s = .next { interruptEntry (discardedFetch s) with env := (interruptEntry (discardedFetch s)).env.advance } := by
  simp only [step_undisturbed h0, undisturbed, hr, runStep, hp, hi]
  rfl

theorem step_interrupt_halted {s : State} (h0 : s.env.now.reset = false) (hi : interruptAccepted s = true)
    (hr : s.runState = .waitHalt) :
    step s = .next { interruptEntry s with env := (interruptEntry s).env.advance } := by
  simp only [step_undisturbed h0, undisturbed, hr, haltStep, hi]
  rfl

theorem step_instr {s : State} (hr : s.runState = .run) (hu : unforced s) (hi : interruptAccepted s = false) :
    step s = endStep (runInstr (senseRequest s)) := by
  simp only [step_undisturbed hu.1, undisturbed, hr, runStep, hu.2, hi]
  rfl

theorem step_halted {s : State} (hr : s.runState = .waitHalt) (h0 : s.env.now.reset = false) (hi : interruptAccepted s = false) :
    step s = .next { senseRequest s with env := s.env.advance } := by
  simp only [step_undisturbed h0, undisturbed, hr, haltStep, hi]
  rfl

theorem step_paused {s : State} (hr : s.runState = .waitPause) (h0 : s.env.now.reset = false) (h1 : s.env.now.pause = true) :
    step s = .next { dmaWrites s.env.now.dma s with env := s.env.advance } := by
  simp only [step_undisturbed h0, undisturbed, hr, pauseStep, h1]
  rw [dmaWrites_eq]
  rfl

theorem step_released {s : State} (hr : s.runState = .waitPause) (hu : unforced s) : step s = endStep (leavePause s) := by
  simp only [step_undisturbed hu.1, undisturbed, hr, pauseStep, hu.2]
  rfl

end Sys2Proof
end

