-- ==== Sys2Proof/Tests/Slice0.lean ====
section
/-! SUPPORT. Tests: terms no encoding has; a word written out for every instruction; one step per instruction with the result the spec's derived vectors give (97_derived_vectors.md); and, for each statement with hypotheses, a state that meets them. -/

namespace Sys2Proof.Tests

open Sys2Proof Sys2Proof.Machine

/-! Helpers -/

/-- Bytes placed at addresses. -/
def place (bs : List (Addr × Byte)) (s : State) : State :=
  match bs with
  | [] => s
  | b :: t => place t (s.withByte b.1 b.2)

/-- The step of a state ends in a next state of which p is true. -/
def stepsTo (s : State) (p : State → Bool) : Bool :=
  match step s with
  | .next t => p t
  | .fault _ => false
  | .refused _ => false

/-- The step with these bytes at IAR and these others in memory ends in a next state of which p is true. -/
def after (a : Addr) (bs : List Byte) (mem : List (Addr × Byte)) (s : State) (p : State → Bool) : Bool :=
  stepsTo ((place mem { s with iar := a }).withBytes a bs) p

/-- A state with ROM at H'1000' to H'17FF', a device at H'1800' to H'18FF', nothing at H'1900' to H'1FFF', RAM elsewhere. -/
def mapped : State :=
  { State.reset with env := { State.reset.env with platform := { State.reset.env.platform with memMap :=
    [{ first := 0x1000, last := 0x17FF, kind := .rom }, { first := 0x1800, last := 0x18FF, kind := .device },
     { first := 0x1900, last := 0x1FFF, kind := .nothing }] } } }

/-- A state with these devices. -/
def withDevices (ds : List Device) (s : State) : State := { s with env := { s.env with devices := ds } }

/-- A state with these inputs now and none to come. -/
def withInput (i : Input) (s : State) : State := { s with env := { s.env with now := i } }

/-! Terms no encoding has (30_encoding.md R117, R120) -/

theorem test_wf_lodz_r0 : (Instr.lodz .r0).wellFormed = false := by decide
theorem test_wf_strz_r0 : (Instr.strz .r0).wellFormed = false := by decide
theorem test_wf_andz_r0 : (Instr.andz .r0).wellFormed = false := by decide
theorem test_wf_bcfr_3 : (Instr.bcfr 3 { ind := false, disp := 0 }).wellFormed = false := by decide
theorem test_wf_bcfa_3 : (Instr.bcfa 3 { ind := false, addr := 0 }).wellFormed = false := by decide
theorem test_wf_bsfr_3 : (Instr.bsfr 3 { ind := false, disp := 0 }).wellFormed = false := by decide
theorem test_wf_bsfa_3 : (Instr.bsfa 3 { ind := false, addr := 0 }).wellFormed = false := by decide
theorem test_wf_legal : (Instr.bcfr 2 { ind := true, disp := 5 }).wellFormed = true ∧ (Instr.addz .r0).wellFormed = true ∧
    (Instr.retc 3).wellFormed = true ∧ (Instr.loda .r0 { ind := false, ic := .inc, addr := 0 }).wellFormed = true := by decide

/-! Every instruction's decoding, its word written out from 30_encoding.md R104 to R112 -/

theorem test_decode_lodz : decode [0b00000010] = .ok (.lodz .r2, []) := by decide
theorem test_decode_lodi : decode [0b00000111, 0b10000001] = .ok (.lodi .r3 0x81, []) := by decide
theorem test_decode_lodr : decode [0b00001001, 0b11111110] = .ok (.lodr .r1 { ind := true, disp := -2 }, []) := by decide
theorem test_decode_loda : decode [0b00001111, 0b00100100, 0b00010011] = .ok (.loda .r3 { ind := false, ic := .inc, addr := 0x0413 }, []) := by decide
theorem test_decode_strz : decode [0b11000011] = .ok (.strz .r3, []) := by decide
theorem test_decode_strr : decode [0b11001000, 0b00000001] = .ok (.strr .r0 { ind := false, disp := 1 }, []) := by decide
theorem test_decode_stra : decode [0b11001110, 0b11000000, 0b00000001] = .ok (.stra .r2 { ind := true, ic := .dec, addr := 1 }, []) := by decide
theorem test_decode_addz : decode [0b10000000] = .ok (.addz .r0, []) := by decide
theorem test_decode_addi : decode [0b10000101, 0b01100110] = .ok (.addi .r1 0x66, []) := by decide
theorem test_decode_addr : decode [0b10001010, 0b01000000] = .ok (.addr .r2 { ind := false, disp := -64 }, []) := by decide
theorem test_decode_adda : decode [0b10001100, 0b01111111, 0b11111110] = .ok (.adda .r0 { ind := false, ic := .plain, addr := 0x1FFE }, []) := by decide
theorem test_decode_subz : decode [0b10100001] = .ok (.subz .r1, []) := by decide
theorem test_decode_subi : decode [0b10100110, 0b11111101] = .ok (.subi .r2 0xFD, []) := by decide
theorem test_decode_subr : decode [0b10101011, 0b00111111] = .ok (.subr .r3 { ind := false, disp := 63 }, []) := by decide
theorem test_decode_suba : decode [0b10101101, 0b10010000, 0b00000000] = .ok (.suba .r1 { ind := true, ic := .none, addr := 0x1000 }, []) := by decide
theorem test_decode_andz : decode [0b01000001] = .ok (.andz .r1, []) := by decide
theorem test_decode_andi : decode [0b01000100, 0b00001111] = .ok (.andi .r0 0x0F, []) := by decide
theorem test_decode_andr : decode [0b01001011, 0b10000001] = .ok (.andr .r3 { ind := true, disp := 1 }, []) := by decide
theorem test_decode_anda : decode [0b01001101, 0b01100000, 0b10000000] = .ok (.anda .r1 { ind := false, ic := .plain, addr := 0x80 }, []) := by decide
theorem test_decode_iorz : decode [0b01100011] = .ok (.iorz .r3, []) := by decide
theorem test_decode_iori : decode [0b01100110, 0b10000000] = .ok (.iori .r2 0x80, []) := by decide
theorem test_decode_iorr : decode [0b01101000, 0b01111111] = .ok (.iorr .r0 { ind := false, disp := -1 }, []) := by decide
theorem test_decode_iora : decode [0b01101110, 0b00000010, 0b00000000] = .ok (.iora .r2 { ind := false, ic := .none, addr := 0x200 }, []) := by decide
theorem test_decode_eorz : decode [0b00100000] = .ok (.eorz .r0, []) := by decide
theorem test_decode_eori : decode [0b00100111, 0b01010101] = .ok (.eori .r3 0x55, []) := by decide
theorem test_decode_eorr : decode [0b00101001, 0b00010000] = .ok (.eorr .r1 { ind := false, disp := 16 }, []) := by decide
theorem test_decode_eora : decode [0b00101110, 0b10111111, 0b11111111] = .ok (.eora .r2 { ind := true, ic := .inc, addr := 0x1FFF }, []) := by decide
theorem test_decode_comz : decode [0b11100010] = .ok (.comz .r2, []) := by decide
theorem test_decode_comi : decode [0b11100101, 0b10000000] = .ok (.comi .r1 0x80, []) := by decide
theorem test_decode_comr : decode [0b11101010, 0b10000111] = .ok (.comr .r2 { ind := true, disp := 7 }, []) := by decide
theorem test_decode_coma : decode [0b11101111, 0b01000110, 0b00000010] = .ok (.coma .r3 { ind := false, ic := .dec, addr := 0x602 }, []) := by decide
theorem test_decode_rrl : decode [0b11010001] = .ok (.rrl .r1, []) := by decide
theorem test_decode_rrr : decode [0b01010010] = .ok (.rrr .r2, []) := by decide
theorem test_decode_lpsu : decode [0b10010010] = .ok (.lpsu, []) := by decide
theorem test_decode_lpsl : decode [0b10010011] = .ok (.lpsl, []) := by decide
theorem test_decode_spsu : decode [0b00010010] = .ok (.spsu, []) := by decide
theorem test_decode_spsl : decode [0b00010011] = .ok (.spsl, []) := by decide
theorem test_decode_ppsu : decode [0b01110110, 0b01000000] = .ok (.ppsu 0x40, []) := by decide
theorem test_decode_ppsl : decode [0b01110111, 0b00001000] = .ok (.ppsl 0x08, []) := by decide
theorem test_decode_cpsu : decode [0b01110100, 0b00100000] = .ok (.cpsu 0x20, []) := by decide
theorem test_decode_cpsl : decode [0b01110101, 0b00000001] = .ok (.cpsl 0x01, []) := by decide
theorem test_decode_tpsu : decode [0b10110100, 0b10000000] = .ok (.tpsu 0x80, []) := by decide
theorem test_decode_tpsl : decode [0b10110101, 0b00000010] = .ok (.tpsl 0x02, []) := by decide
theorem test_decode_zbrr : decode [0b10011011, 0b01111000] = .ok (.zbrr { ind := false, disp := -8 }, []) := by decide
theorem test_decode_bctr : decode [0b00011010, 0b00000111] = .ok (.bctr 2 { ind := false, disp := 7 }, []) := by decide
theorem test_decode_bcta : decode [0b00011111, 0b10000001, 0b01010000] = .ok (.bcta 3 { ind := true, addr := 0x150 }, []) := by decide
theorem test_decode_bcfr : decode [0b10011001, 0b11000000] = .ok (.bcfr 1 { ind := true, disp := -64 }, []) := by decide
theorem test_decode_bcfa : decode [0b10011110, 0b01111111, 0b11111111] = .ok (.bcfa 2 { ind := false, addr := 0x7FFF }, []) := by decide
theorem test_decode_birr : decode [0b11011011, 0b01111001] = .ok (.birr .r3 { ind := false, disp := -7 }, []) := by decide
theorem test_decode_bira : decode [0b11011101, 0b00100000, 0b00000001] = .ok (.bira .r1 { ind := false, addr := 0x2001 }, []) := by decide
theorem test_decode_bdrr : decode [0b11111010, 0b01111101] = .ok (.bdrr .r2 { ind := false, disp := -3 }, []) := by decide
theorem test_decode_bdra : decode [0b11111100, 0b10000000, 0b00010000] = .ok (.bdra .r0 { ind := true, addr := 0x10 }, []) := by decide
theorem test_decode_brnr : decode [0b01011001, 0b10000010] = .ok (.brnr .r1 { ind := true, disp := 2 }, []) := by decide
theorem test_decode_brna : decode [0b01011110, 0b01000000, 0b00000000] = .ok (.brna .r2 { ind := false, addr := 0x4000 }, []) := by decide
theorem test_decode_bxa : decode [0b10011111, 0b00000010, 0b00000000] = .ok (.bxa { ind := false, addr := 0x200 }, []) := by decide
theorem test_decode_zbsr : decode [0b10111011, 0b01110110] = .ok (.zbsr { ind := false, disp := -10 }, []) := by decide
theorem test_decode_bstr : decode [0b00111000, 0b00000101] = .ok (.bstr 0 { ind := false, disp := 5 }, []) := by decide
theorem test_decode_bsta : decode [0b00111111, 0b00000010, 0b10110100] = .ok (.bsta 3 { ind := false, addr := 0x2B4 }, []) := by decide
theorem test_decode_bsfr : decode [0b10111010, 0b10000001] = .ok (.bsfr 2 { ind := true, disp := 1 }, []) := by decide
theorem test_decode_bsfa : decode [0b10111101, 0b11111111, 0b00000000] = .ok (.bsfa 1 { ind := true, addr := 0x7F00 }, []) := by decide
theorem test_decode_bsnr : decode [0b01111011, 0b01000001] = .ok (.bsnr .r3 { ind := false, disp := -63 }, []) := by decide
theorem test_decode_bsna : decode [0b01111101, 0b00010010, 0b00110100] = .ok (.bsna .r1 { ind := false, addr := 0x1234 }, []) := by decide
theorem test_decode_bsxa : decode [0b10111111, 0b10000001, 0b00000000] = .ok (.bsxa { ind := true, addr := 0x100 }, []) := by decide
theorem test_decode_retc : decode [0b00010110] = .ok (.retc 2, []) := by decide
theorem test_decode_rete : decode [0b00110111] = .ok (.rete 3, []) := by decide
theorem test_decode_redd : decode [0b01110001] = .ok (.redd .r1, []) := by decide
theorem test_decode_redc : decode [0b00110010] = .ok (.redc .r2, []) := by decide
theorem test_decode_rede : decode [0b01010111, 0b11111001] = .ok (.rede .r3 0xF9, []) := by decide
theorem test_decode_wrtd : decode [0b11110011] = .ok (.wrtd .r3, []) := by decide
theorem test_decode_wrtc : decode [0b10110001] = .ok (.wrtc .r1, []) := by decide
theorem test_decode_wrte : decode [0b11010110, 0b00000010] = .ok (.wrte .r2 0x02, []) := by decide
theorem test_decode_nop : decode [0b11000000] = .ok (.nop, []) := by decide
theorem test_decode_tmi : decode [0b11110101, 0b10000001] = .ok (.tmi .r1 0x81, []) := by decide
theorem test_decode_dar : decode [0b10010110] = .ok (.dar .r2, []) := by decide
theorem test_decode_halt : decode [0b01000000] = .ok (.halt, []) := by decide

/-! Words that are no instruction (30_encoding.md R118, R119, R124), and the words of the opcode table -/

theorem test_decode_zero : decode [0x00, 0x01] = .error .indeterminate := by decide
theorem test_decode_unassigned : ∀ b ∈ unassignedBytes, decode [b, 0, 0] = .error (.unassigned b) := by decide
theorem test_decode_short : decode [0x0C, 0x01] = .error .truncated := by decide
theorem test_tableWord_order : decodeTableWord 24 0x13240F = some (.loda .r3 { ind := false, ic := .inc, addr := 0x413 }) := by decide
theorem test_tableWord_operands_zero : decodeTableWord 8 0x1F = some (.bcta 3 { ind := false, addr := 0 }) := by decide
theorem test_withFetchWord_runs : stepsTo (State.reset.withFetchWord 16 0x6605) (fun t => decide (t.bank0.r1 = 0x66) && decide (t.iar = 2)) = true := by decide
theorem test_withFetchWord_over_device :
    stepsTo (State.withFetchWord { mapped with iar := 0x18FF } 16 0x6605) (fun t => decide (t.bank0.r1 = 0x66) && decide (t.env.ops = [])) = true := by decide
theorem test_roundTrip_sample : decode (encode (.stra .r2 { ind := true, ic := .dec, addr := 0x1A2B })) = .ok (.stra .r2 { ind := true, ic := .dec, addr := 0x1A2B }, []) := by decide

/-! One step of every instruction -/

/-- 97_derived_vectors.md V1. -/
theorem test_lodz_v1 :
    after 0x0100 [0x01] []
      { State.reset with r0 := 0x11, bank0 := { r1 := 0x80, r2 := 0x00, r3 := 0x00 } }
      (fun t => decide (t.r0 = 0x80) && decide (t.psl = 0x80)) = true := by decide

/-- 97_derived_vectors.md V2. -/
theorem test_lodz_v2 :
    after 0x0100 [0x02] []
      { State.reset with r0 := 0x11, psl := 0x10, bank0 := { r1 := 0x00, r2 := 0x22, r3 := 0x00 } }
      (fun t => decide (t.r0 = 0x00)) = true := by decide

/-- 97_derived_vectors.md V3. -/
theorem test_lodi_v3 :
    after 0x0100 [0x04, 0x00] []
      { State.reset with r0 := 0x55, psl := 0xC7 }
      (fun t => decide (t.r0 = 0x00) && decide (t.psl = 0x07)) = true := by decide

/-- 97_derived_vectors.md V4. -/
theorem test_lodi_v4 :
    after 0x0100 [0x07, 0x7F] []
      State.reset
      (fun t => decide (t.bank0.r3 = 0x7F) && decide (t.psl = 0x40)) = true := by decide

/-- 97_derived_vectors.md V8. -/
theorem test_lodr_v8 :
    after 0x0100 [0x0B, 0x90] [(0x0112, 0x12), (0x0113, 0x34), (0x1234, 0x00)]
      { State.reset with psl := 0x40, bank0 := { r1 := 0x00, r2 := 0x00, r3 := 0x77 } }
      (fun t => decide (t.bank0.r3 = 0x00) && decide (t.psl = 0x00)) = true := by decide

/-- 97_derived_vectors.md V10. -/
theorem test_lodr_v10 :
    after 0x2000 [0x08, 0x7D] [(0x3FFF, 0x42)]
      State.reset
      (fun t => decide (t.r0 = 0x42) && decide (t.psl = 0x40)) = true := by decide

/-- 97_derived_vectors.md V17. -/
theorem test_loda_v17 :
    after 0x0100 [0x0F, 0xF2, 0x34] [(0x1234, 0x41), (0x1235, 0x00), (0x41FF, 0x80)]
      { State.reset with bank0 := { r1 := 0x00, r2 := 0x00, r3 := 0xFF } }
      (fun t => decide (t.r0 = 0x80) && decide (t.psl = 0x80)) = true := by decide

/-- 97_derived_vectors.md V14. -/
theorem test_loda_v14 :
    after 0x0100 [0x0E, 0x32, 0x34] [(0x1234, 0x5A)]
      { State.reset with bank0 := { r1 := 0x00, r2 := 0xFF, r3 := 0x00 } }
      (fun t => decide (t.r0 = 0x5A) && decide (t.bank0.r2 = 0x00) && decide (t.psl = 0x40)) = true := by decide

/-- 97_derived_vectors.md V22. -/
theorem test_strz_v22 :
    after 0x0100 [0xC1] []
      { State.reset with psl := 0x80, bank0 := { r1 := 0x99, r2 := 0x00, r3 := 0x00 } }
      (fun t => decide (t.bank0.r1 = 0x00) && decide (t.psl = 0x00)) = true := by decide

/-- 97_derived_vectors.md V23. -/
theorem test_strz_v23 :
    after 0x0100 [0xC3] []
      { State.reset with r0 := 0xF0, psl := 0x10 }
      (fun t => decide (t.bank1.r3 = 0xF0) && decide (t.psl = 0x90)) = true := by decide

/-- 97_derived_vectors.md V25. -/
theorem test_strr_v25 :
    after 0x0100 [0xC8, 0x00] []
      { State.reset with r0 := 0x40 }
      (fun t => decide (t.peek 0x0102 = 0x40)) = true := by decide

/-- 97_derived_vectors.md V26. -/
theorem test_strr_v26 :
    after 0x0100 [0xCB, 0x85] [(0x0107, 0x04), (0x0108, 0x00)]
      { State.reset with bank0 := { r1 := 0x00, r2 := 0x00, r3 := 0x11 } }
      (fun t => decide (t.peek 0x0400 = 0x11)) = true := by decide

/-- 97_derived_vectors.md V27. -/
theorem test_stra_v27 :
    after 0x0100 [0xCF, 0x24, 0x00] []
      { State.reset with r0 := 0xEE, psl := 0x80, bank0 := { r1 := 0x00, r2 := 0x00, r3 := 0xFF } }
      (fun t => decide (t.bank0.r3 = 0x00) && decide (t.peek 0x0400 = 0xEE)) = true := by decide

/-- 97_derived_vectors.md V30. -/
theorem test_stra_v30 :
    after 0x2003 [0xCC, 0x00, 0x40] []
      { State.reset with r0 := 0x77 }
      (fun t => decide (t.peek 0x2040 = 0x77)) = true := by decide

/-- 97_derived_vectors.md V38. -/
theorem test_addz_v38 :
    after 0x0100 [0x80] []
      { State.reset with r0 := 0x81 }
      (fun t => decide (t.r0 = 0x02) && decide (t.psl = 0x45)) = true := by decide

/-- 97_derived_vectors.md V39. -/
theorem test_addz_v39 :
    after 0x0100 [0x82] []
      { State.reset with r0 := 0x12, bank0 := { r1 := 0x00, r2 := 0x39, r3 := 0x00 } }
      (fun t => decide (t.r0 = 0x4B) && decide (t.psl = 0x40)) = true := by decide

/-- 97_derived_vectors.md V31. -/
theorem test_addi_v31 :
    after 0x0100 [0x84, 0x40] []
      { State.reset with r0 := 0x7C }
      (fun t => decide (t.r0 = 0xBC) && decide (t.psl = 0x84)) = true := by decide

/-- 97_derived_vectors.md V33. -/
theorem test_addi_v33 :
    after 0x0100 [0x85, 0x00] []
      { State.reset with psl := 0x09, bank0 := { r1 := 0x0F, r2 := 0x00, r3 := 0x00 } }
      (fun t => decide (t.bank0.r1 = 0x10) && decide (t.psl = 0x68)) = true := by decide

/-- 97_derived_vectors.md V40. -/
theorem test_addr_v40 :
    after 0x0100 [0x89, 0x02] [(0x0104, 0x01)]
      { State.reset with bank0 := { r1 := 0x7F, r2 := 0x00, r3 := 0x00 } }
      (fun t => decide (t.bank0.r1 = 0x80) && decide (t.psl = 0xA4)) = true := by decide

/-- 97_derived_vectors.md V41. -/
theorem test_adda_v41 :
    after 0x0100 [0x8D, 0x65, 0x2F] [(0x0530, 0x34)]
      { State.reset with r0 := 0x12, psl := 0x08, bank0 := { r1 := 0x01, r2 := 0x00, r3 := 0x00 } }
      (fun t => decide (t.r0 = 0x46) && decide (t.psl = 0x48)) = true := by decide

/-- 97_derived_vectors.md V48. -/
theorem test_subz_v48 :
    after 0x0100 [0xA0] []
      { State.reset with r0 := 0x5A }
      (fun t => decide (t.r0 = 0x00) && decide (t.psl = 0x21)) = true := by decide

/-- 97_derived_vectors.md V49. -/
theorem test_subz_v49 :
    after 0x0100 [0xA1] []
      { State.reset with r0 := 0x10, bank0 := { r1 := 0x20, r2 := 0x00, r3 := 0x00 } }
      (fun t => decide (t.r0 = 0xF0) && decide (t.psl = 0xA0)) = true := by decide

/-- 97_derived_vectors.md V45. -/
theorem test_subi_v45 :
    after 0x0100 [0xA7, 0xFF] []
      { State.reset with bank0 := { r1 := 0x00, r2 := 0x00, r3 := 0x7F } }
      (fun t => decide (t.bank0.r3 = 0x80) && decide (t.psl = 0xA4)) = true := by decide

/-- 97_derived_vectors.md V46. -/
theorem test_subi_v46 :
    after 0x0100 [0xA4, 0x00] []
      { State.reset with r0 := 0x10, psl := 0x08 }
      (fun t => decide (t.r0 = 0x0F) && decide (t.psl = 0x49)) = true := by decide

/-- 97_derived_vectors.md V50. -/
theorem test_subr_v50 :
    after 0x0100 [0xA9, 0x7E] []
      { State.reset with bank0 := { r1 := 0xA9, r2 := 0x00, r3 := 0x00 } }
      (fun t => decide (t.bank0.r1 = 0x00) && decide (t.psl = 0x21)) = true := by decide

/-- 97_derived_vectors.md V51. -/
theorem test_suba_v51 :
    after 0x0100 [0xAD, 0x65, 0x2F] [(0x0530, 0x34)]
      { State.reset with r0 := 0x12, psl := 0x09, bank0 := { r1 := 0x01, r2 := 0x00, r3 := 0x00 } }
      (fun t => decide (t.r0 = 0xDE) && decide (t.psl = 0x88)) = true := by decide

/-- 97_derived_vectors.md V54. -/
theorem test_andz_v54 :
    after 0x0100 [0x42] []
      { State.reset with r0 := 0xFF, bank0 := { r1 := 0x00, r2 := 0x80, r3 := 0x00 } }
      (fun t => decide (t.r0 = 0x80) && decide (t.psl = 0x80)) = true := by decide

/-- 97_derived_vectors.md V52. -/
theorem test_andi_v52 :
    after 0x0100 [0x44, 0x0F] []
      { State.reset with r0 := 0xA5, psl := 0x27 }
      (fun t => decide (t.r0 = 0x05) && decide (t.psl = 0x67)) = true := by decide

/-- 97_derived_vectors.md V55. -/
theorem test_andr_v55 :
    after 0x0100 [0x49, 0x02] [(0x0104, 0x3C)]
      { State.reset with bank0 := { r1 := 0x66, r2 := 0x00, r3 := 0x00 } }
      (fun t => decide (t.bank0.r1 = 0x24) && decide (t.psl = 0x40)) = true := by decide

/-- 97_derived_vectors.md V56. -/
theorem test_anda_v56 :
    after 0x0100 [0x4E, 0x64, 0x00] [(0x0403, 0x0F)]
      { State.reset with r0 := 0xFF, bank0 := { r1 := 0x00, r2 := 0x03, r3 := 0x00 } }
      (fun t => decide (t.r0 = 0x0F) && decide (t.psl = 0x40)) = true := by decide

/-- 97_derived_vectors.md V59. -/
theorem test_iorz_v59 :
    after 0x0100 [0x63] []
      { State.reset with r0 := 0x0F, bank0 := { r1 := 0x00, r2 := 0x00, r3 := 0xF0 } }
      (fun t => decide (t.r0 = 0xFF) && decide (t.psl = 0x80)) = true := by decide

/-- 97_derived_vectors.md V57. -/
theorem test_iori_v57 :
    after 0x0100 [0x64, 0x80] []
      { State.reset with r0 := 0x01 }
      (fun t => decide (t.r0 = 0x81) && decide (t.psl = 0x80)) = true := by decide

/-- 97_derived_vectors.md V60. -/
theorem test_iorr_v60 :
    after 0x0100 [0x6B, 0x82] [(0x0104, 0x02), (0x0105, 0x00), (0x0200, 0x11)]
      { State.reset with bank0 := { r1 := 0x00, r2 := 0x00, r3 := 0x22 } }
      (fun t => decide (t.bank0.r3 = 0x33) && decide (t.psl = 0x40)) = true := by decide

/-- 97_derived_vectors.md V61. -/
theorem test_iora_v61 :
    after 0x0100 [0x6C, 0x02, 0x00] [(0x0200, 0x00)]
      { State.reset with psl := 0x80 }
      (fun t => decide (t.psl = 0x00)) = true := by decide

/-- 97_derived_vectors.md V62. -/
theorem test_eorz_v62 :
    after 0x0100 [0x20] []
      { State.reset with r0 := 0x5A, psl := 0xC0 }
      (fun t => decide (t.r0 = 0x00) && decide (t.psl = 0x00)) = true := by decide

/-- 97_derived_vectors.md V63. -/
theorem test_eori_v63 :
    after 0x0100 [0x25, 0xFF] []
      { State.reset with bank0 := { r1 := 0x0F, r2 := 0x00, r3 := 0x00 } }
      (fun t => decide (t.bank0.r1 = 0xF0) && decide (t.psl = 0x80)) = true := by decide

/-- 97_derived_vectors.md V65. -/
theorem test_eorr_v65 :
    after 0x0100 [0x2A, 0x00] [(0x0102, 0xFF)]
      { State.reset with bank0 := { r1 := 0x00, r2 := 0xFF, r3 := 0x00 } }
      (fun t => decide (t.bank0.r2 = 0x00)) = true := by decide

/-- 97_derived_vectors.md V66. -/
theorem test_eora_v66 :
    after 0x0100 [0x2F, 0x44, 0x00] [(0x04FF, 0x81)]
      { State.reset with r0 := 0x01 }
      (fun t => decide (t.r0 = 0x80) && decide (t.bank0.r3 = 0xFF) && decide (t.psl = 0x80)) = true := by decide

/-- 97_derived_vectors.md V74. -/
theorem test_comz_v74 :
    after 0x0100 [0xE2] []
      { State.reset with r0 := 0x03, bank0 := { r1 := 0x00, r2 := 0x05, r3 := 0x00 } }
      (fun t => decide (t.psl = 0x80)) = true := by decide

/-- 97_derived_vectors.md V67. -/
theorem test_comi_v67 :
    after 0x0100 [0xE5, 0x01] []
      { State.reset with bank0 := { r1 := 0x80, r2 := 0x00, r3 := 0x00 } }
      (fun t => decide (t.psl = 0x80) && decide (t.iar = 0x0102)) = true := by decide

/-- 97_derived_vectors.md V68. -/
theorem test_comi_v68 :
    after 0x0100 [0xE5, 0x01] []
      { State.reset with psl := 0x02, bank0 := { r1 := 0x80, r2 := 0x00, r3 := 0x00 } }
      (fun t => decide (t.psl = 0x42) && decide (t.iar = 0x0102)) = true := by decide

/-- 97_derived_vectors.md V76. -/
theorem test_comr_v76 :
    after 0x0100 [0xE9, 0x02] [(0x0104, 0x10)]
      { State.reset with psl := 0x02, bank0 := { r1 := 0x0F, r2 := 0x00, r3 := 0x00 } }
      (fun t => decide (t.psl = 0x82)) = true := by decide

/-- 97_derived_vectors.md V78. -/
theorem test_coma_v78 :
    after 0x0100 [0xED, 0x06, 0x02] [(0x0602, 0x03)]
      { State.reset with psl := 0x02, bank0 := { r1 := 0x02, r2 := 0x00, r3 := 0x00 } }
      (fun t => decide (t.psl = 0x82)) = true := by decide

/-- 97_derived_vectors.md V80. -/
theorem test_rrl_v80 :
    after 0x0100 [0xD1] []
      { State.reset with psl := 0x08, bank0 := { r1 := 0x81, r2 := 0x00, r3 := 0x00 } }
      (fun t => decide (t.bank0.r1 = 0x02) && decide (t.psl = 0x4D)) = true := by decide

/-- 97_derived_vectors.md V79. -/
theorem test_rrl_v79 :
    after 0x0100 [0xD1] []
      { State.reset with psl := 0x01, bank0 := { r1 := 0x81, r2 := 0x00, r3 := 0x00 } }
      (fun t => decide (t.bank0.r1 = 0x03) && decide (t.psl = 0x41)) = true := by decide

/-- 97_derived_vectors.md V86. -/
theorem test_rrr_v86 :
    after 0x0100 [0x51] []
      { State.reset with psl := 0x09, bank0 := { r1 := 0x01, r2 := 0x00, r3 := 0x00 } }
      (fun t => decide (t.bank0.r1 = 0x80) && decide (t.psl = 0x8D)) = true := by decide

/-- 97_derived_vectors.md V85. -/
theorem test_rrr_v85 :
    after 0x0100 [0x51] []
      { State.reset with bank0 := { r1 := 0x01, r2 := 0x00, r3 := 0x00 } }
      (fun t => decide (t.bank0.r1 = 0x80) && decide (t.psl = 0x80)) = true := by decide

/-- 97_derived_vectors.md V90. -/
theorem test_lpsu_v90 :
    after 0x0100 [0x92] []
      { State.reset with r0 := 0xFF }
      (fun t => decide (psuRead t = 0x67)) = true := by decide

/-- 97_derived_vectors.md V94. -/
theorem test_lpsl_v94 :
    after 0x0100 [0x93] []
      { State.reset with r0 := 0xFF }
      (fun t => decide (t.psl = 0xFF)) = true := by decide

/-- 97_derived_vectors.md V92. -/
theorem test_spsu_v92 :
    after 0x0100 [0x12] []
      { State.reset with ii := true, sp := 3, env := { State.reset.env with now := { Input.idle with sense := true } } }
      (fun t => decide (t.r0 = 0xA3) && decide (t.psl = 0x80)) = true := by decide

/-- 97_derived_vectors.md V98. -/
theorem test_spsl_v98 :
    after 0x0100 [0x13] []
      { State.reset with r0 := 0xFF, psl := 0xC1 }
      (fun t => decide (t.r0 = 0xC1) && decide (t.psl = 0x81)) = true := by decide

/-- 97_derived_vectors.md V99. -/
theorem test_ppsu_v99 :
    after 0x0100 [0x76, 0xFF] []
      State.reset
      (fun t => decide (psuRead t = 0x67)) = true := by decide

/-- 97_derived_vectors.md V104. -/
theorem test_ppsl_v104 :
    after 0x0100 [0x77, 0x10] []
      State.reset
      (fun t => decide (t.psl = 0x10)) = true := by decide

/-- 97_derived_vectors.md V101. -/
theorem test_cpsu_v101 :
    after 0x0100 [0x74, 0x40] []
      { State.reset with flag := true, ii := true, sp := 2 }
      (fun t => decide (psuRead t = 0x22)) = true := by decide

/-- 97_derived_vectors.md V107. -/
theorem test_cpsl_v107 :
    after 0x0100 [0x75, 0x01] []
      { State.reset with psl := 0x09 }
      (fun t => decide (t.psl = 0x08)) = true := by decide

/-- 97_derived_vectors.md V108. -/
theorem test_tpsu_v108 :
    after 0x0100 [0xB4, 0x80] []
      { State.reset with psl := 0x40, env := { State.reset.env with now := { Input.idle with sense := true } } }
      (fun t => decide (t.psl = 0x00) && decide (t.iar = 0x0102)) = true := by decide

/-- 97_derived_vectors.md V110. -/
theorem test_tpsu_v110 :
    after 0x0100 [0xB4, 0x18] []
      { State.reset with flag := true, ii := true, sp := 7, env := { State.reset.env with now := { Input.idle with sense := true } } }
      (fun t => decide (t.psl = 0x80) && decide (t.iar = 0x0102)) = true := by decide

/-- 97_derived_vectors.md V113. -/
theorem test_tpsl_v113 :
    after 0x0100 [0xB5, 0x03] []
      { State.reset with psl := 0x01 }
      (fun t => decide (t.psl = 0x81)) = true := by decide

/-- 97_derived_vectors.md V131. -/
theorem test_zbrr_v131 :
    after 0x2100 [0x9B, 0x78] []
      State.reset
      (fun t => decide (t.iar = 0x1FF8)) = true := by decide

/-- 97_derived_vectors.md V116. -/
theorem test_bctr_v116 :
    after 0x0100 [0x18, 0x05] []
      State.reset
      (fun t => decide (t.iar = 0x0107)) = true := by decide

/-- 97_derived_vectors.md V118. -/
theorem test_bctr_v118 :
    after 0x0100 [0x18, 0x05] []
      { State.reset with psl := 0xC0 }
      (fun t => decide (t.iar = 0x0102)) = true := by decide

/-- 97_derived_vectors.md V125. -/
theorem test_bcta_v125 :
    after 0x0100 [0x1F, 0x81, 0x10] [(0x0110, 0xE0), (0x0111, 0x05)]
      State.reset
      (fun t => decide (t.iar = 0x6005)) = true := by decide

/-- 97_derived_vectors.md V128. -/
theorem test_bcfr_v128 :
    after 0x0100 [0x9A, 0x02] []
      { State.reset with psl := 0xC0 }
      (fun t => decide (t.iar = 0x0104)) = true := by decide

/-- 97_derived_vectors.md V129. -/
theorem test_bcfa_v129 :
    after 0x0100 [0x9C, 0x12, 0x34] []
      { State.reset with psl := 0x80 }
      (fun t => decide (t.iar = 0x1234)) = true := by decide

/-- 97_derived_vectors.md V130. -/
theorem test_bcfa_v130 :
    after 0x0100 [0x9E, 0x12, 0x34] []
      { State.reset with psl := 0x80 }
      (fun t => decide (t.iar = 0x0103)) = true := by decide

/-- 97_derived_vectors.md V134. -/
theorem test_birr_v134 :
    after 0x0100 [0xD9, 0x7E] []
      { State.reset with psl := 0xC5, bank0 := { r1 := 0xFE, r2 := 0x00, r3 := 0x00 } }
      (fun t => decide (t.bank0.r1 = 0xFF) && decide (t.iar = 0x0100)) = true := by decide

/-- 97_derived_vectors.md V135. -/
theorem test_birr_v135 :
    after 0x0100 [0xD9, 0x7E] []
      { State.reset with psl := 0xC5, bank0 := { r1 := 0xFF, r2 := 0x00, r3 := 0x00 } }
      (fun t => decide (t.bank0.r1 = 0x00)) = true := by decide

/-- 97_derived_vectors.md V136. -/
theorem test_bira_v136 :
    after 0x0100 [0xDC, 0x20, 0x00] []
      State.reset
      (fun t => decide (t.r0 = 0x01) && decide (t.iar = 0x2000)) = true := by decide

/-- 97_derived_vectors.md V138. -/
theorem test_bdrr_v138 :
    after 0x0100 [0xF9, 0x7E] []
      State.reset
      (fun t => decide (t.bank0.r1 = 0xFF) && decide (t.iar = 0x0100)) = true := by decide

/-- 97_derived_vectors.md V139. -/
theorem test_bdra_v139 :
    after 0x0100 [0xFF, 0x00, 0x50] []
      { State.reset with psl := 0x10, bank1 := { r1 := 0x00, r2 := 0x00, r3 := 0x02 } }
      (fun t => decide (t.bank1.r3 = 0x01) && decide (t.iar = 0x0050)) = true := by decide

/-- 97_derived_vectors.md V140. -/
theorem test_brnr_v140 :
    after 0x0100 [0x5A, 0x10] []
      { State.reset with bank0 := { r1 := 0x00, r2 := 0x01, r3 := 0x00 } }
      (fun t => decide (t.iar = 0x0112)) = true := by decide

/-- 97_derived_vectors.md V142. -/
theorem test_brna_v142 :
    after 0x0100 [0x5C, 0x7F, 0xFF] []
      { State.reset with r0 := 0x80 }
      (fun t => decide (t.iar = 0x7FFF)) = true := by decide

/-- 97_derived_vectors.md V145. -/
theorem test_bxa_v145 :
    after 0x0100 [0x9F, 0x82, 0x00] [(0x0200, 0x40), (0x0201, 0x00)]
      { State.reset with psl := 0x10, bank1 := { r1 := 0x00, r2 := 0x00, r3 := 0x05 } }
      (fun t => decide (t.iar = 0x4005)) = true := by decide

/-- 97_derived_vectors.md V150. -/
theorem test_zbsr_v150 :
    after 0x4100 [0xBB, 0x76] []
      State.reset
      (fun t => decide (psuRead t = 0x01) && decide (rasGet t.ras 1 = 0x4102) && decide (t.iar = 0x1FF6)) = true := by decide

/-- 97_derived_vectors.md V149. -/
theorem test_bstr_v149 :
    after 0x0100 [0x3B, 0x05] []
      { State.reset with flag := true, ii := true, sp := 2 }
      (fun t => decide (psuRead t = 0x63) && decide (rasGet t.ras 3 = 0x0102) && decide (t.iar = 0x0107)) = true := by decide

/-- 97_derived_vectors.md V147. -/
theorem test_bsta_v147 :
    after 0x0100 [0x3F, 0x02, 0xB4] []
      { State.reset with sp := 7 }
      (fun t => decide (psuRead t = 0x00) && decide (rasGet t.ras 0 = 0x0103) && decide (t.iar = 0x02B4)) = true := by decide

/-- 97_derived_vectors.md V148. -/
theorem test_bsta_v148 :
    after 0x0100 [0x3C, 0x02, 0xB4] []
      { State.reset with psl := 0x40 }
      (fun t => decide (t.iar = 0x0103)) = true := by decide

/-- 97_derived_vectors.md V152. -/
theorem test_bsfr_v152 :
    after 0x0100 [0xB8, 0x05] []
      { State.reset with psl := 0x40 }
      (fun t => decide (psuRead t = 0x01) && decide (rasGet t.ras 1 = 0x0102) && decide (t.iar = 0x0107)) = true := by decide

/-- 97_derived_vectors.md V154. -/
theorem test_bsfa_v154 :
    after 0x0100 [0xBD, 0x20, 0x00] []
      { State.reset with sp := 1 }
      (fun t => decide (psuRead t = 0x02) && decide (rasGet t.ras 2 = 0x0103) && decide (t.iar = 0x2000)) = true := by decide

/-- 97_derived_vectors.md V155. -/
theorem test_bsnr_v155 :
    after 0x0100 [0x79, 0x05] []
      { State.reset with bank0 := { r1 := 0x01, r2 := 0x00, r3 := 0x00 } }
      (fun t => decide (psuRead t = 0x01) && decide (rasGet t.ras 1 = 0x0102) && decide (t.iar = 0x0107)) = true := by decide

/-- 97_derived_vectors.md V157. -/
theorem test_bsna_v157 :
    after 0x0100 [0x7C, 0x80, 0x20] [(0x0020, 0x03), (0x0021, 0x00)]
      { State.reset with r0 := 0xFF }
      (fun t => decide (psuRead t = 0x01) && decide (rasGet t.ras 1 = 0x0103) && decide (t.iar = 0x0300)) = true := by decide

/-- 97_derived_vectors.md V158. -/
theorem test_bsxa_v158 :
    after 0x0100 [0xBF, 0x03, 0x00] []
      { State.reset with sp := 3, bank0 := { r1 := 0x00, r2 := 0x00, r3 := 0x04 } }
      (fun t => decide (psuRead t = 0x04) && decide (rasGet t.ras 4 = 0x0103) && decide (t.iar = 0x0304)) = true := by decide

/-- 97_derived_vectors.md V160. -/
theorem test_retc_v160 :
    after 0x0100 [0x17] []
      { State.reset with ras := rasSet State.reset.ras 0 0x2345 }
      (fun t => decide (psuRead t = 0x07) && decide (t.iar = 0x2345)) = true := by decide

/-- 97_derived_vectors.md V161. -/
theorem test_retc_v161 :
    after 0x0100 [0x14] []
      { State.reset with sp := 1, psl := 0x40, ras := rasSet State.reset.ras 1 0x0103 }
      (fun t => decide (t.iar = 0x0101)) = true := by decide

/-- 97_derived_vectors.md V163. -/
theorem test_rete_v163 :
    after 0x0100 [0x37] []
      { State.reset with ii := true, sp := 1, ras := rasSet State.reset.ras 1 0x0103 }
      (fun t => decide (psuRead t = 0x00) && decide (t.iar = 0x0103)) = true := by decide

/-- 97_derived_vectors.md V164. -/
theorem test_rete_v164 :
    after 0x0100 [0x34] []
      { State.reset with ii := true, sp := 1, psl := 0x80, ras := rasSet State.reset.ras 1 0x0103 }
      (fun t => decide (t.iar = 0x0101)) = true := by decide

/-- 97_derived_vectors.md V165. -/
theorem test_redd_v165 :
    after 0x0100 [0x70] []
      (withDevices [⟨.port .control, [0x77]⟩, ⟨.port .data, [0x00]⟩] { State.reset with r0 := 0x55, psl := 0x80 })
      (fun t => decide (t.r0 = 0x00) && decide (t.psl = 0x00) && decide (t.env.ops = [.portRead .data 0x00])) = true := by decide

/-- 97_derived_vectors.md V166. -/
theorem test_redc_v166 :
    after 0x0100 [0x31] []
      (withDevices [⟨.port .data, [0x77]⟩, ⟨.port .control, [0x80]⟩] State.reset)
      (fun t => decide (t.bank0.r1 = 0x80) && decide (t.psl = 0x80) && decide (t.env.ops = [.portRead .control 0x80])) = true := by decide

/-- 97_derived_vectors.md V167. -/
theorem test_rede_v167 :
    after 0x0100 [0x56, 0xF9] []
      (withDevices [⟨.extended 0xF8, [0x77]⟩, ⟨.extended 0xF9, [0x41]⟩] State.reset)
      (fun t => decide (t.bank0.r2 = 0x41) && decide (t.psl = 0x40) && decide (t.env.ops = [.extRead 0xF9 0x41])) = true := by decide

/-- 97_derived_vectors.md V168. -/
theorem test_wrtd_v168 :
    after 0x0100 [0xF1] []
      { State.reset with psl := 0x40, bank0 := { r1 := 0x3C, r2 := 0x00, r3 := 0x00 } }
      (fun t => decide (t.env.ops = [.portWrite .data 0x3C])) = true := by decide

/-- 97_derived_vectors.md V169. -/
theorem test_wrtc_v169 :
    after 0x0100 [0xB0] []
      { State.reset with r0 := 0x80 }
      (fun t => decide (t.env.ops = [.portWrite .control 0x80])) = true := by decide

/-- 97_derived_vectors.md V170. -/
theorem test_wrte_v170 :
    after 0x0100 [0xD7, 0x02] []
      { State.reset with psl := 0x10, bank1 := { r1 := 0x00, r2 := 0x00, r3 := 0x99 } }
      (fun t => decide (t.env.ops = [.extWrite 0x02 0x99])) = true := by decide

/-- 97_derived_vectors.md V171. -/
theorem test_nop_v171 :
    after 0x0100 [0xC0] []
      { State.reset with r0 := 0x12, psl := 0xC0 }
      (fun t => decide (t.iar = 0x0101)) = true := by decide

/-- 97_derived_vectors.md V174. -/
theorem test_tmi_v174 :
    after 0x0100 [0xF5, 0x81] []
      { State.reset with bank0 := { r1 := 0x80, r2 := 0x00, r3 := 0x00 } }
      (fun t => decide (t.psl = 0x80)) = true := by decide

/-- 97_derived_vectors.md V182. -/
theorem test_dar_v182 :
    after 0x0100 [0x95] []
      { State.reset with psl := 0x01, bank0 := { r1 := 0xF7, r2 := 0x00, r3 := 0x00 } }
      (fun t => decide (t.bank0.r1 = 0xF1)) = true := by decide

/-- 97_derived_vectors.md V181. -/
theorem test_dar_v181 :
    after 0x0100 [0x94] []
      { State.reset with r0 := 0x66 }
      (fun t => decide (t.r0 = 0x00)) = true := by decide

/-- 97_derived_vectors.md V172. -/
theorem test_halt_v172 :
    after 0x0100 [0x40] []
      State.reset
      (fun t => decide (t.runState = .waitHalt)) = true := by decide

/-! Faults, interrupts, RESET, PAUSE -/

/-- 97_derived_vectors.md V183, V184. -/
theorem test_faults :
    (match step (State.reset.withByte 0 0x00) with | .fault f => decide (f = .indeterminateOpcode 0) | _ => false) = true ∧
    (match step (State.reset.withByte 0 0x10) with | .fault f => decide (f = .unassignedOpcode 0 0x10) | _ => false) = true := by decide

/-- The state of vectors X1 to X6, with II, SP and the vector byte to be given. -/
def requested (ii : Bool) (sp : BitVec 3) (v : Byte) : State :=
  place [(0x0010, 0xA1), (0x0011, 0x00)] { State.reset with
    iar := 0x2123, ii := ii, sp := sp, psl := 0xC5, r0 := 0x11
    env := { State.reset.env with now := { Input.idle with intreq := true }, devices := [⟨.vector, [v]⟩] } }

/-- 97_derived_vectors.md X1. -/
theorem test_interrupt_x1 : stepsTo (requested false 2 0x10)
    (fun t => decide (psuRead t = 0x23) && decide (rasGet t.ras 3 = 0x2123) && decide (t.iar = 0x0010) && decide (t.psl = 0xC5)) = true := by decide

/-- 97_derived_vectors.md X2. -/
theorem test_interrupt_x2 : stepsTo (requested false 2 0x90) (fun t => decide (t.iar = 0x2100)) = true := by decide

/-- 97_derived_vectors.md X3. -/
theorem test_interrupt_x3 : stepsTo (requested false 2 0x7E) (fun t => decide (t.iar = 0x1FFE)) = true := by decide

/-- 97_derived_vectors.md X4. -/
theorem test_interrupt_x4 : stepsTo ((requested true 2 0x10).withByte 0x2123 0xC0) (fun t => decide (t.iar = 0x2124) && decide (t.sp = 2)) = true := by decide

/-- 97_derived_vectors.md X6. -/
theorem test_interrupt_x6 : stepsTo (requested false 7 0x10) (fun t => decide (t.sp = 0) && decide (rasGet t.ras 0 = 0x2123)) = true := by decide

/-- RETE,UN with a request held (97_derived_vectors.md X5). -/
def returning : State :=
  withInput { Input.idle with intreq := true }
    (State.withByte { State.reset with iar := 0x30, ii := true, sp := 1, ras := rasSet State.reset.ras 1 0x456 } 0x30 0x37)

/-- 97_derived_vectors.md X5: RETE, then the entry. -/
theorem test_interrupt_x5 :
    stepsTo (withDevices [⟨.vector, [0x08]⟩] returning) (fun t => decide (t.iar = 0x456) && decide (t.ii = false) &&
      stepsTo t (fun u => decide (u.iar = 0x0008) && decide (rasGet u.ras 1 = 0x456))) = true := by decide

/-- 97_derived_vectors.md X7: what RESET gives, from a HALT wait. -/
theorem test_reset_x7 :
    stepsTo (withInput { Input.idle with reset := true } { State.reset with iar := 0x5ABC, ii := true, runState := .waitHalt })
      (fun t => decide (t.iar = 0) && decide (t.ii = false) && decide (t.runState = .run)) = true := by decide

/-- 60_exceptions.md R377: PAUSE is obeyed at the boundary and DMA reaches RAM only in the wait. -/
theorem test_pause_dma :
    stepsTo (withInput { Input.idle with pause := true, dma := [(0x40, 0x77)] } (State.reset.withByte 0 0xC0))
      (fun t => decide (t.runState = .waitPause) && decide (t.ir = 0xC0) &&
        stepsTo (withInput { Input.idle with pause := true, dma := [(0x40, 0x77)] } t) (fun u => decide (u.peek 0x40 = 0x77))) = true := by decide


/-! States that meet the hypotheses of the statements, one theorem for each statement that has any -/

theorem witness_DecodeOfEncodeIsTheInstr : (Instr.bsfa 2 { ind := true, addr := 0x7FFF }).wellFormed = true := by decide

theorem witness_EncodeOfDecodeIsTheBytes :
    decode [0x9B, 0xC0, 0xFF] = .ok (.zbrr { ind := true, disp := -64 }, [0xFF]) := by decide

theorem witness_DecodeFailsOnlyAsTheMapSays :
    (instrLength 0x0C = .ok 3 ∧ [(0x0C : Byte), 0x01].length < 3) ∧ (instrLength 0x04 = .ok 2 ∧ 2 ≤ [(0x04 : Byte), 0x01].length) ∧
    (0x10 : Byte) ∈ unassignedBytes ∧ (0xC7 : Byte) ∈ unassignedBytes ∧
    (0x01 : Byte) ≠ 0x00 ∧ (0x01 : Byte) ∉ unassignedBytes ∧ (0xFF : Byte) ≠ 0x00 ∧ (0xFF : Byte) ∉ unassignedBytes := by decide

theorem witness_RelativeAddress :
    ({ ind := false, disp := -64 } : RelArg).ind = false ∧ ({ ind := true, disp := 63 } : RelArg).ind = true := by decide

theorem witness_ZeroRelativeAddress :
    ({ ind := false, disp := 63 } : RelArg).ind = false ∧ ({ ind := true, disp := -64 } : RelArg).ind = true := by decide

theorem witness_IndirectPointer : plainAt mapped 0x17FE ∧ plainAt mapped (nextInPage 0x17FE) :=
  ⟨.inr (by decide), .inr (by decide)⟩

theorem witness_AbsoluteAddress :
    ({ ind := true, ic := .inc, addr := 0x1FFF } : AbsArg).ic = .inc ∧ ({ ind := false, ic := .dec, addr := 0 } : AbsArg).ic = .dec := by decide

theorem witness_BranchAddresses :
    ({ ind := false, addr := 0x7FFF } : BrArg).ind = false ∧ ({ ind := true, addr := 0 } : BrArg).ind = true := by decide

theorem witness_MemoryWrite :
    mapped.env.kindAt 0x0FFF = .ram ∧ mapped.env.kindAt 0x1000 = .rom ∧ mapped.env.kindAt 0x17FF = .rom ∧
    mapped.env.kindAt 0x1800 = .device ∧ mapped.env.kindAt 0x18FF = .device ∧ mapped.env.kindAt 0x1900 = .nothing ∧
    mapped.env.kindAt 0x1FFF = .nothing ∧ mapped.env.kindAt 0x2000 = .ram := by decide

theorem witness_MemoryRead :
    plainAt mapped 0x0FFF ∧ plainAt mapped 0x1000 ∧ mapped.env.kindAt 0x1800 = .device ∧ mapped.env.kindAt 0x1900 = .nothing :=
  ⟨.inl (by decide), .inr (by decide), by decide, by decide⟩

/-- A state that is about to store: STRR,R0 to the byte after it. -/
def storing : State := State.withBytes { State.reset with r0 := 0x40 } 0 [0xC8, 0x00]

theorem witness_StepKeepsMemoryCanonical : canonical storing ∧ stepsTo storing (fun _ => true) = true :=
  ⟨by unfold canonical; decide, by decide⟩

theorem witness_OnlyStoresWriteMemory (s : State) : (∀ m, Instr.nop ≠ strOf m) ∧ exec .nop s = .next s :=
  ⟨fun m => by cases m <;> simp [strOf], rfl⟩

theorem witness_StepKeepsReadOnlyMemory :
    stepsTo (mapped.withByte 0 0xC0) (fun _ => true) = true ∧ (mapped.withByte 0 0xC0).env.kindAt 0x1000 ≠ .ram := by decide

theorem witness_StoresComplete :
    let m (a : Offset) : MemForm := .abs .r1 { ind := false, ic := .none, addr := a }
    mapped.env.kindAt ((m 0x0FFF).ea mapped).1 = .ram ∧ mapped.env.kindAt ((m 0x1000).ea mapped).1 ≠ .ram ∧
    mapped.env.kindAt ((m 0x18FF).ea mapped).1 = .device := by decide

theorem witness_OverflowIsSignedOverflow : wcOf 0xF7 = false := by decide

theorem witness_SixteenBitChains : wcOf 0x08 = true ∧ cOf 0x08 = false ∧ wcOf 0x09 = true ∧ cOf 0x09 = true := by decide

theorem witness_RotatesComplete :
    wcOf { State.reset with psl := 0x08 }.psl = true ∧ wcOf State.reset.psl = false := by decide

theorem witness_RotatesComeRound :
    wcOf State.reset.psl = false ∧ wcOf { State.reset with psl := 0x09 }.psl = true ∧ Instr.rrl .r3 = .rrl .r3 := by decide

theorem witness_BitTestsComplete :
    let s : State := { State.reset with psl := 0x81, r0 := 0x81, flag := true }
    (∀ k, k < 8 → (0x40 : Byte).getLsbD k = true → (psuRead s).getLsbD k = true) ∧
    ((0x60 : Byte).getLsbD 5 = true ∧ (psuRead s).getLsbD 5 = false) ∧ (0x10 : Byte).getLsbD 4 = true ∧
    (∀ k, k < 8 → (0x81 : Byte).getLsbD k = true → s.psl.getLsbD k = true) ∧
    ((0x83 : Byte).getLsbD 1 = true ∧ s.psl.getLsbD 1 = false) ∧
    (∀ k, k < 8 → (0x81 : Byte).getLsbD k = true → (regNow .r0 s).getLsbD k = true) ∧
    ((0x83 : Byte).getLsbD 1 = true ∧ (regNow .r0 s).getLsbD 1 = false) := by decide

theorem witness_ConditionalBranchesComplete :
    ccOf { State.reset with psl := 0x80 }.psl = 2 ∧ ¬ ((1 : CondVal) = 3 ∨ ccOf { State.reset with psl := 0x80 }.psl = 1) ∧
    (2 : CondVal) ≠ 3 ∧ ccOf { State.reset with psl := 0xC0 }.psl ≠ 2 := by decide

theorem witness_CountingBranchesComplete :
    regNow .r0 { State.reset with r0 := 255 } = 255 ∧ regNow .r0 State.reset ≠ 255 ∧
    regNow .r0 { State.reset with r0 := 1 } = 1 ∧ regNow .r0 State.reset ≠ 1 := by decide

theorem witness_ConditionalCallsComplete :
    ccOf { State.reset with psl := 0x40 }.psl = 1 ∧ ¬ ((0 : CondVal) = 3 ∨ ccOf { State.reset with psl := 0x40 }.psl = 0) ∧
    (0 : CondVal) ≠ 3 ∧ ccOf { State.reset with psl := 0xC0 }.psl ≠ 0 := by decide

theorem witness_RegisterTestsComplete :
    regNow .r2 State.reset = 0 ∧ regNow .r0 { State.reset with r0 := 0x80 } ≠ 0 := by decide

theorem witness_ReturnsComplete :
    ((3 : CondVal) = 3 ∨ ccOf State.reset.psl = 3) ∧ ccOf State.reset.psl = 0 ∧ ¬ ((1 : CondVal) = 3 ∨ ccOf State.reset.psl = 1) := by decide

theorem witness_StackIsEightLevelsLastInFirstOut :
    ([1, 2, 3] : List Addr).length ≤ 8 ∧ ([1, 2, 3, 4, 5, 6, 7, 8] : List Addr).length = 8 := by decide

theorem witness_InputsComplete :
    answersOf (.port .data) (withDevices [⟨.port .data, [0x80, 0x00]⟩] State.reset).env.devices = 0x80 :: [0x00] ∧
    answersOf (.port .control) (withDevices [⟨.port .data, [0x80, 0x00]⟩] State.reset).env.devices = [] := by decide

theorem witness_OperationsAreToldApart :
    signalsOf (.extRead 0xF9 1) = signalsOf (.extRead 0xF9 2) ∧ extendedAddress (.extRead 0xF9 1) = extendedAddress (.extRead 0xF9 2) := by decide

theorem witness_DecimalArithmetic :
    (9 < 10 ∧ 0 < 10) ∧ wcOf { State.reset with r0 := 0x99 }.psl = false ∧ regNow .r0 { State.reset with r0 := 0x99 } = bcd 9 9 := by decide

theorem witness_EveryInstructionCompletes : Instr.nop ≠ .halt := by decide

theorem witness_StatusBitsChangeOnlyAsTabulated (s : State) :
    exec .nop s = .next s ∧ Instr.nop ≠ .lpsl ∧ (∀ v, Instr.nop ≠ .ppsl v) ∧ (∀ v, Instr.nop ≠ .cpsl v) ∧
    (∀ f, Instr.nop ≠ addOf f) ∧ (∀ f, Instr.nop ≠ subOf f) ∧ (∀ r, Instr.nop ≠ .rrl r ∧ Instr.nop ≠ .rrr r) ∧
    Instr.nop ≠ .lpsu ∧ (∀ v, Instr.nop ≠ .ppsu v) ∧ (∀ v, Instr.nop ≠ .cpsu v) ∧ (∀ v, Instr.nop ≠ .rete v) ∧
    writesCC .nop = false ∧ writesSP .nop = false := by
  refine ⟨rfl, by simp, by simp, by simp, fun f => ?_, fun f => ?_, by simp, by simp, by simp, by simp, by simp, rfl, rfl⟩
  · rcases f with r | ⟨r, v⟩ | ⟨r, a⟩ | ⟨x, a⟩ <;> simp [addOf]
  · rcases f with r | ⟨r, v⟩ | ⟨r, a⟩ | ⟨x, a⟩ <;> simp [subOf]

theorem witness_ConditionCodeNeverSetToThree :
    exec .nop State.reset = .next State.reset ∧ Instr.nop ≠ .lpsl ∧ (∀ v, Instr.nop ≠ .ppsl v) ∧ (∀ r, Instr.nop ≠ .dar r) ∧
    ccOf State.reset.psl ≠ 0b11 :=
  ⟨rfl, by simp, by simp, by simp, by decide⟩

theorem witness_StackChangesOnlyByCallsAndReturns (s : State) :
    exec .nop s = .next s ∧ (∀ a, Instr.nop ≠ .zbsr a) ∧ (∀ a, Instr.nop ≠ .bsxa a) ∧ (∀ v f, Instr.nop ≠ bstOf v f) ∧
    (∀ v f, Instr.nop ≠ bsfOf v f) ∧ (∀ r f, Instr.nop ≠ bsnOf r f) ∧ Instr.nop ≠ .lpsu ∧ (∀ v, Instr.nop ≠ .ppsu v) ∧
    (∀ v, Instr.nop ≠ .cpsu v) ∧ (∀ v, Instr.nop ≠ .retc v) ∧ (∀ v, Instr.nop ≠ .rete v) := by
  refine ⟨rfl, by simp, by simp, ?_, ?_, ?_, by simp, by simp, by simp, by simp, by simp⟩
  · intro v f; cases f <;> simp [bstOf]
  · intro v f; cases f <;> simp [bsfOf]
  · intro v f; cases f <;> simp [bsnOf]

theorem witness_UnselectedBankIsKept (s : State) : exec (.ppsl 0x10) s = .next { s with psl := s.psl ||| 0x10 } ∧ Reg.r1 ≠ .r0 :=
  ⟨rfl, by decide⟩

theorem witness_StepRunsTheDecodedInstr :
    (Instr.strr .r0 { ind := false, disp := 0 }).wellFormed = true ∧
    holdsAt storing storing.iar (encode (.strr .r0 { ind := false, disp := 0 })) ∧
    storing.runState = .run ∧ unforced storing ∧ interruptAccepted storing = false :=
  ⟨rfl, ⟨.inl (by decide), by decide, .inl (by decide), by decide, trivial⟩, rfl, ⟨rfl, rfl⟩, rfl⟩

/-- A state whose next first byte is b. -/
def fetching (b : Byte) : State := State.reset.withByte 0 b

/-- The same with the policy "any state afterwards" for first bytes with no mnemonic. -/
def lenient (s : State) : State :=
  { s with env := { s.env with platform := { s.env.platform with opcode00 := .anyState, unassigned := .anyState } } }

theorem witness_OnlyElevenFirstBytesFault (b : Byte) :
    plainAt (fetching b) (fetching b).iar ∧ (fetching b).runState = .run ∧ unforced (fetching b) ∧
    interruptAccepted (fetching b) = false ∧ (fetching b).peek (fetching b).iar = b ∧
    (fetching b).env.platform.opcode00 = .stop ∧ (lenient (fetching b)).env.platform.opcode00 = .anyState ∧
    (lenient (fetching b)).env.platform.unassigned = .anyState ∧ (fetchByte (fetching b)).1 = b ∧
    (let w : State := { fetching b with runState := .waitPause, ir := b }
     unforced w ∧ w.runState = .waitPause ∧ (w.intWaiting && !w.ii) = false ∧ w.ir = b) :=
  ⟨.inl rfl, rfl, ⟨rfl, rfl⟩, rfl, rfl, rfl, rfl, rfl, rfl, ⟨rfl, rfl⟩, rfl, rfl, rfl⟩

theorem witness_InterruptEntry :
    let s := requested false 2 0x10
    let h : State := { requested false 2 0x90 with runState := .waitHalt }
    (s.env.now.reset = false ∧ s.ii = false ∧ s.env.now.intreq = true ∧ s.runState = .run ∧ s.env.now.pause = false ∧
      answersOf .vector s.env.devices = 0x10 :: [] ∧ (0x10 : Byte).getLsbD 7 = false) ∧
    (h.env.now.reset = false ∧ h.ii = false ∧ h.env.now.intreq = true ∧ h.runState = .waitHalt ∧
      answersOf .vector h.env.devices = 0x90 :: [] ∧ (0x90 : Byte).getLsbD 7 = true ∧ h.env.kindAt 0x10 = .ram ∧ h.env.kindAt (nextInPage 0x10) = .ram) := by decide

theorem witness_InhibitMasksTheInterrupt :
    unforced (requested true 2 0x10) ∧ (requested true 2 0x10).ii = true ∧ (requested true 2 0x10).runState = .run ∧
    { requested true 2 0x10 with runState := .waitHalt }.runState = .waitHalt ∧
    { requested true 2 0x10 with runState := .waitPause }.runState = .waitPause :=
  ⟨⟨rfl, rfl⟩, rfl, rfl, rfl, rfl⟩

/-- A request is still held when a step is over, and neither RESET nor PAUSE is driven. -/
def requestHeld (t : State) : Bool := decide (t.env.now.reset = false) && decide (t.env.now.pause = false) && t.env.now.intreq

/-- An instruction written over the RETE of `returning`. -/
def enabling (b c : Byte) : State := State.withByte (State.withByte returning 0x30 b) 0x31 c

theorem witness_EnablingAdmitsTheWaitingRequest :
    clearsII (.rete 3) returning ∧ holdsAt returning returning.iar (encode (.rete 3)) ∧ returning.runState = .run ∧
    unforced returning ∧ returning.ii = true ∧ stepsTo returning requestHeld = true :=
  ⟨.inl ⟨3, rfl, .inl rfl⟩, ⟨.inl (by decide), by decide, trivial⟩, rfl, ⟨rfl, rfl⟩, rfl, by decide⟩

theorem witness_EnablingAdmitsTheWaitingRequest_cpsu :
    clearsII (.cpsu 0x20) (enabling 0x74 0x20) ∧ holdsAt (enabling 0x74 0x20) 0x30 (encode (.cpsu 0x20)) ∧
    stepsTo (enabling 0x74 0x20) requestHeld = true :=
  ⟨.inr (.inl ⟨0x20, rfl, by decide⟩), ⟨.inl (by decide), by decide, .inl (by decide), by decide, trivial⟩, by decide⟩

theorem witness_EnablingAdmitsTheWaitingRequest_lpsu :
    clearsII .lpsu (enabling 0x92 0x00) ∧ holdsAt (enabling 0x92 0x00) 0x30 (encode .lpsu) ∧
    stepsTo (enabling 0x92 0x00) requestHeld = true :=
  ⟨.inr (.inr ⟨rfl, by decide⟩), ⟨.inl (by decide), by decide, trivial⟩, by decide⟩

theorem witness_FinishedRunsStayFinished :
    finished { State.reset with runState := .waitHalt, env := { State.reset.env with later := [Input.idle] } } :=
  ⟨rfl, rfl, .inr rfl, fun i h => by simp at h; subst h; exact ⟨rfl, .inr rfl⟩⟩

/-- RESET with INTREQ in a PAUSE wait that stays, both withdrawn and PAUSE released in the step after. -/
def resetInPause : State :=
  { State.withByte { State.reset with runState := .waitPause, iar := 0x77 } 0 0xC0 with
    env := { State.reset.env with
      now := { Input.idle with reset := true, pause := true, intreq := true }, later := [Input.idle], devices := [⟨.vector, [0x20]⟩] } }

/-- 60_exceptions.md R353 items 1 and 2: the request is entered on release, before the instruction at 0. -/
theorem test_reset_in_pause :
    stepsTo resetInPause (fun t => decide (t.runState = .waitPause) && decide (t.ir = 0xC0) && decide (t.iar = 0) &&
      stepsTo t (fun u => decide (u.iar = 0x0020) && decide (u.ii = true))) = true := by decide

theorem witness_ResetRestartsTheProcessor :
    let s := withInput { Input.idle with reset := true } State.reset
    s.env.now.reset = true ∧ s.env.now.resetAfter = 0 ∧ ¬ (s.runState = .waitPause ∧ s.env.now.pause = true) ∧
    stepsTo s (fun _ => true) = true ∧
    resetInPause.env.now.reset = true ∧ resetInPause.env.now.resetAfter = 0 ∧ resetInPause.runState = .waitPause ∧
    resetInPause.env.now.pause = true ∧ resetInPause.env.kindAt 0 = .ram ∧
    stepsTo resetInPause (fun t => decide (t.env.now.reset = false) && decide (t.env.now.pause = false)) = true := by decide

/-- REDD,R0, then RESET after the read of the port. -/
def abandoned : State :=
  withInput { Input.idle with reset := true, resetAfter := 1 } (withDevices [⟨.port .data, [0x41, 0x42]⟩] (fetching 0x70))

/-- 70_reset_and_hazards.md R380: the instruction is abandoned, the port was read. -/
theorem test_reset_abandons :
    stepsTo abandoned (fun t => decide (t.iar = 0) && decide (t.env.ops = [.portRead .data 0x41]) &&
      decide (answersOf (.port .data) t.env.devices = [0x42])) = true := by decide

theorem witness_ResetAbandonsTheStep :
    let a (n : Nat) : State := withInput { Input.idle with reset := true, resetAfter := n } storing
    (a 1).env.now.reset = true ∧ (a 1).env.now.resetAfter ≠ 0 ∧ (a 1).runState ≠ .waitPause ∧ (a 1).env.now.pause = false ∧
    (match undisturbed (a 1) with | .next u => decide ((newOps (a 1) u).length < 1) | _ => false) = true ∧
    (match undisturbed abandoned with | .next u => decide (1 ≤ (newOps abandoned u).length) | _ => false) = true := by decide

/-- An interrupt after an instruction, the code in a device window. -/
def requestedInWindow : State :=
  { mapped with iar := 0x1800, fetchedAhead := true, env := { mapped.env with
    now := { Input.idle with intreq := true }, devices := [⟨.memory 0x1800, [0xC0, 0x40]⟩, ⟨.vector, [0x10]⟩] } }

/-- 70_reset_and_hazards.md R400 (d): byte 0 at the return address was read once before the acknowledge. -/
theorem test_interrupt_early_read :
    stepsTo requestedInWindow (fun t => decide (t.env.ops = [.intAck 0x10, .memRead 0x1800 0xC0]) && decide (t.iar = 0x10)) = true := by decide

theorem witness_PauseIsInvisible :
    let s := withInput { Input.idle with pause := true } (fetching 0xC0)
    s.runState = .run ∧ s.env.now.reset = false ∧ s.env.now.pause = true ∧ s.env.kindAt s.iar = .ram ∧
    (Input.idle.reset = false ∧ Input.idle.pause = false) ∧ (s.env.now.intreq && !s.ii) = false := by decide

theorem witness_InterruptAndPause :
    let s := withInput { Input.idle with pause := true, intreq := true } (fetching 0xC0)
    let t : State := { s with env := { s.env with later := [Input.idle] } }
    let w := withInput { Input.idle with intreq := true } { fetching 0xC0 with runState := .waitPause, ir := 0xC0 }
    (t.runState = .run ∧ t.env.now.reset = false ∧ t.env.now.pause = true ∧ t.ii = false ∧ t.env.now.intreq = true ∧
      stepsTo t (fun u => decide (u.env.now.reset = false) && decide (u.env.now.pause = false)) = true) ∧
    stepsTo s (fun u => decide (u.runState = .waitPause) && u.intWaiting && decide (u.ii = false) &&
      decide (u.env.now.reset = false) && u.env.now.pause) = true ∧
    stepsTo t (fun u => decide (u.runState = .waitPause) && u.intWaiting && decide (u.ii = false) &&
      decide (u.env.now.reset = false) && decide (u.env.now.pause = false)) = true ∧
    (w.runState = .waitPause ∧ w.intWaiting = false ∧ w.env.now.reset = false ∧ w.env.now.pause = false ∧
      stepsTo w (fun u => decide (u.env.now.reset = false) && decide (u.env.now.pause = false) && u.env.now.intreq &&
        decide (u.ii = false) && decide (u.runState ≠ .waitPause)) = true) := by decide

theorem witness_DmaDuringPauseKeepsTheHeldByte :
    let s := withInput { Input.idle with pause := true, dma := [(0x0FFF, 0x76), (0x1000, 0x77), (0x0FFF, 0x78)] }
      { mapped with runState := .waitPause }
    s.runState = .waitPause ∧ s.env.now.reset = false ∧ s.env.now.pause = true ∧ s.env.kindAt 0x0FFF = .ram ∧
    s.env.kindAt 0x1000 ≠ .ram ∧ lastWritten 0x0FFF s.env.now.dma = some 0x78 := by decide

theorem witness_StoreIntoNextInstrIsSeen :
    holdsAt storing storing.iar (encode (strOf (.rel .r0 { ind := false, disp := 0 }))) ∧ storing.runState = .run ∧ unforced storing ∧
    interruptAccepted storing = false ∧ stepsTo storing (fun _ => true) = true ∧
    (relEA { ind := false, disp := 0 } { storing with iar := 2 }).1 = 2 ∧ storing.env.kindAt 2 = .ram :=
  ⟨⟨.inl (by decide), by decide, .inl (by decide), by decide, trivial⟩, rfl, ⟨rfl, rfl⟩, rfl, by decide, by decide, by decide⟩

end Sys2Proof.Tests
end

