-- ==== Sys2Proof/Proofs/Addresses.lean ====
section
/-! The relative and the zero-relative effective address (20_memory.md R78, R79): the displacement as a signed number, each address function's direct and indirect case, and the two obligations. -/

namespace Sys2Proof

open Sys2Proof.Machine

/-! The signed displacement -/

/-- Sign extension keeps the signed value, so the extended bits read as a natural number are that value modulo `2 ^ m`. -/
theorem signExtend_toNat {n m : Nat} (d : BitVec n) : ((d.signExtend m).toNat : Int) = d.toInt % (2 ^ m : Nat) := by
  have nonneg : 0 ≤ d.toInt % (2 ^ m : Nat) := Int.emod_nonneg _ (by positivity)
  rw [BitVec.signExtend, BitVec.toNat_ofInt, Int.toNat_of_nonneg nonneg]

theorem add_signExtend_toNat {n m : Nat} (x : BitVec m) (d : BitVec n) :
    ((x + d.signExtend m).toNat : Int) = (x.toNat + d.toInt) % (2 ^ m : Nat) := by
  rw [BitVec.toNat_add, Int.natCast_mod, Int.natCast_add, signExtend_toNat, Int.add_emod_emod]

/-! The two address functions, direct and indirect -/

theorem relEA_direct (d : BitVec 7) (s : State) :
    relEA ⟨false, d⟩ s = (inPage s.iar (offsetOf s.iar + d.signExtend 13), s) := rfl

theorem relEA_indirect (d : BitVec 7) (s : State) :
    relEA ⟨true, d⟩ s = indirect (relEA ⟨false, d⟩ s).1 s := rfl

theorem zeroRelEA_direct (d : BitVec 7) (s : State) : zeroRelEA ⟨false, d⟩ s = (0#2 ++ d.signExtend 13, s) := rfl

theorem zeroRelEA_indirect (d : BitVec 7) (s : State) :
    zeroRelEA ⟨true, d⟩ s = indirect (zeroRelEA ⟨false, d⟩ s).1 s := rfl

/-- The page of IAR stays; the displacement is added in the page, modulo 8,192. -/
theorem relEA_direct_toNat (d : BitVec 7) (s : State) :
    ((relEA ⟨false, d⟩ s).1.toNat : Int) =
      8192 * (s.iar.toNat / 8192 : Nat) + ((s.iar.toNat % 8192 : Nat) + d.toInt) % 8192 := by
  rw [relEA_direct, inPage_toNat, Int.natCast_add, add_signExtend_toNat, offsetOf_toNat, Int.natCast_mul]
  norm_num

/-- The page is 0, so a negative displacement reaches the end of page 0. -/
theorem zeroRelEA_direct_toNat (d : BitVec 7) (s : State) :
    ((zeroRelEA ⟨false, d⟩ s).1.toNat : Int) = d.toInt % 8192 := by
  have page0 : (0#2 ++ d.signExtend 13).toNat = (d.signExtend 13).toNat := by
    rw [append_toNat, BitVec.toNat_zero, Nat.mul_zero, Nat.zero_add]
  rw [zeroRelEA_direct, page0, signExtend_toNat]
  norm_num

/-! The obligations -/

/-- Settles O6: the address computed in the page for a clear indirect bit, the pointer at that address for a set one. -/
theorem relativeAddress : Obligations.RelativeAddress := by
  rintro ⟨ind, d⟩ s
  refine ⟨?direct, ?indirect⟩
  case direct =>
    rintro rfl
    exact ⟨by rw [relEA_direct], relEA_direct_toNat d s⟩
  case indirect =>
    rintro rfl
    exact relEA_indirect d s

/-- Settles O7: as O6, with the displacement counted from byte 0 of page 0. -/
theorem zeroRelativeAddress : Obligations.ZeroRelativeAddress := by
  rintro ⟨ind, d⟩ s
  refine ⟨?direct, ?indirect⟩
  case direct =>
    rintro rfl
    exact ⟨by rw [zeroRelEA_direct], zeroRelEA_direct_toNat d s⟩
  case indirect =>
    rintro rfl
    exact zeroRelEA_indirect d s

end Sys2Proof
end

section
/-! The returns (47_subroutine.md R271, R280, R281): the pop of the return address stack, the meaning of RETC and RETE when taken and when not, and the obligation. -/

namespace Sys2Proof

open Sys2Proof.Machine

/-! The pop -/

/-- Counting down in three bits adds 7 modulo 8, so SP 0 goes to 7. -/
theorem popAndReturn_sp_toNat (s : State) : (popAndReturn s).sp.toNat = (s.sp.toNat + 7) % 8 := by
  rw [popAndReturn_sp, BitVec.toNat_sub, Nat.add_comm]; rfl

/-- A pop changes nothing but IAR and SP; so the entry read stays on the stack. -/
theorem popAndReturn_frame (s : State) : { popAndReturn s with iar := s.iar, sp := s.sp } = s := rfl

theorem returnAndEnable_eq (s : State) :
    returnAndEnable s = { popAndReturn s with ii := (returnAndEnable s).ii } := rfl

/-! RETC and RETE -/

theorem exec_retc (v : CondVal) (s : State) :
    exec (.retc v) s = .next (if condTrue s.psl v then popAndReturn s else s) := by rfl

theorem exec_rete (v : CondVal) (s : State) :
    exec (.rete v) s = .next (if condTrue s.psl v then returnAndEnable s else s) := by rfl

theorem exec_retc_taken {v : CondVal} {s : State} (h : v = 3 ∨ ccOf s.psl = v) :
    exec (.retc v) s = .next (popAndReturn s) := by
  rw [exec_retc, if_pos ((condTrue_iff _ _).mpr h)]

theorem exec_rete_taken {v : CondVal} {s : State} (h : v = 3 ∨ ccOf s.psl = v) :
    exec (.rete v) s = .next (returnAndEnable s) := by
  rw [exec_rete, if_pos ((condTrue_iff _ _).mpr h)]

theorem exec_retc_notTaken {v : CondVal} {s : State} (h : ¬ (v = 3 ∨ ccOf s.psl = v)) :
    exec (.retc v) s = .next s := by
  rw [exec_retc, if_neg (mt (condTrue_iff _ _).mp h)]

theorem exec_rete_notTaken {v : CondVal} {s : State} (h : ¬ (v = 3 ∨ ccOf s.psl = v)) :
    exec (.rete v) s = .next s := by
  rw [exec_rete, if_neg (mt (condTrue_iff _ _).mp h)]

/-! The obligation -/

/-- Settles O35: by whether the condition holds; taken, RETC pops and RETE pops and clears II, else both are the identity. -/
theorem returnsComplete : Obligations.ReturnsComplete := by
  intro v s
  by_cases cond : v = 3 ∨ ccOf s.psl = v
  case pos =>
    refine ⟨popAndReturn s, returnAndEnable s, exec_retc_taken cond, exec_rete_taken cond,
      fun _ => ?_, fun untaken => absurd cond untaken⟩
    exact ⟨popAndReturn_iar s, popAndReturn_sp_toNat s, popAndReturn_frame s, returnAndEnable_ii s, returnAndEnable_eq s⟩
  case neg =>
    exact ⟨s, s, exec_retc_notTaken cond, exec_rete_notTaken cond,
      fun taken => absurd taken cond, fun _ => ⟨rfl, rfl⟩⟩

end Sys2Proof
end

section
/-! The decoder and the encoder (30_encoding.md R103 to R124): an instruction's bytes decode to it, what decodes encodes to the bytes read, and the three reasons for which bytes do not decode. -/

namespace Sys2Proof

open Sys2Proof.Machine

/-! From an instruction to its bytes and back -/

/-- Every instruction the encoding admits has the length its first byte stands for: the family of Laws/PerInstr, put together. -/
theorem encodedLength (i : Instr) : Laws.EncodedLength.Statement i := by
  open Laws.EncodedLength in
  cases i
  exacts [lodz _, lodi _ _, lodr _ _, loda _ _, strz _, strr _ _, stra _ _, addz _, addi _ _, addr _ _, adda _ _,
    subz _, subi _ _, subr _ _, suba _ _, andz _, andi _ _, andr _ _, anda _ _, iorz _, iori _ _, iorr _ _, iora _ _,
    eorz _, eori _ _, eorr _ _, eora _ _, comz _, comi _ _, comr _ _, coma _ _, rrl _, rrr _, lpsu, lpsl, spsu, spsl,
    ppsu _, ppsl _, cpsu _, cpsl _, tpsu _, tpsl _, zbrr _, bctr _ _, bcta _ _, bcfr _ _, bcfa _ _, birr _ _, bira _ _,
    bdrr _ _, bdra _ _, brnr _ _, brna _ _, bxa _, zbsr _, bstr _ _, bsta _ _, bsfr _ _, bsfa _ _, bsnr _ _, bsna _ _,
    bsxa _, retc _, rete _, redd _, redc _, rede _ _, wrtd _, wrtc _, wrte _ _, nop, tmi _ _, dar _, halt]

/-- The bytes of this list are read as the instruction, whatever stands where the list has ended. -/
def ReadsAs (bs : List Byte) (i : Instr) : Prop :=
  ∀ c1 c2, decodeBytes (bs.getD 0 0) (bs.getD 1 c1) (bs.getD 2 c2) = .ok i

theorem readsAs_one {b0 : Byte} {i : Instr} (h : ∀ b1 b2, decodeBytes b0 b1 b2 = .ok i) : ReadsAs [b0] i :=
  fun _ _ => h _ _

theorem readsAs_imm {b0 v : Byte} {f : Byte → Instr} (h : ∀ b1 b2, decodeBytes b0 b1 b2 = .ok (f b1)) :
    ReadsAs [b0, v] (f v) :=
  fun _ _ => h _ _

theorem readsAs_rel {b0 : Byte} {a : RelArg} {f : RelArg → Instr}
    (h : ∀ b1 b2, decodeBytes b0 b1 b2 = .ok (f (RelArg.ofByte b1))) : ReadsAs [b0, a.byte1] (f a) :=
  fun _ _ => (h _ _).trans (by simp only [List.getD_cons_succ, List.getD_cons_zero, RelArg.ofByte_byte1])

theorem readsAs_abs {b0 : Byte} {a : AbsArg} {f : AbsArg → Instr}
    (h : ∀ b1 b2, decodeBytes b0 b1 b2 = .ok (f (AbsArg.ofBytes b1 b2))) : ReadsAs [b0, a.byte1, a.byte2] (f a) :=
  fun _ _ => (h _ _).trans (by simp only [List.getD_cons_succ, List.getD_cons_zero, AbsArg.ofBytes_bytes])

theorem readsAs_br {b0 : Byte} {a : BrArg} {f : BrArg → Instr}
    (h : ∀ b1 b2, decodeBytes b0 b1 b2 = .ok (f (BrArg.ofBytes b1 b2))) : ReadsAs [b0, a.byte1, a.byte2] (f a) :=
  fun _ _ => (h _ _).trans (by simp only [List.getD_cons_succ, List.getD_cons_zero, BrArg.ofBytes_bytes])

/-- One case for each format of operands (30_encoding.md R103 to R109); in each the four register numbers or condition values are tried. -/
theorem readsAs_encode (i : Instr) (hw : i.wellFormed = true) : ReadsAs (encode i) i := by
  open Laws.EncodedLength in
  cases i
  case lodz r | strz r | andz r =>
    cases r
    case r0 => exact absurd hw (by decide)
    all_goals exact readsAs_one fun _ _ => rfl
  case addz r | subz r | iorz r | eorz r | comz r | rrl r | rrr r | redd r | redc r | wrtd r | wrtc r | dar r =>
    exact readsAs_one fun _ _ => by cases r <;> rfl
  case lpsu | lpsl | spsu | spsl | nop | halt => exact readsAs_one fun _ _ => rfl
  case retc v | rete v => exact readsAs_one fun _ _ => by obtain rfl | rfl | rfl | rfl := condVal_cases v <;> rfl
  case lodi r v | addi r v | subi r v | andi r v | iori r v | eori r v | comi r v | rede r v | wrte r v | tmi r v =>
    exact readsAs_imm fun _ _ => by cases r <;> rfl
  case ppsu v | ppsl v | cpsu v | cpsl v | tpsu v | tpsl v => exact readsAs_imm fun _ _ => rfl
  case lodr r a | strr r a | addr r a | subr r a | andr r a | iorr r a | eorr r a | comr r a | birr r a | bdrr r a
      | brnr r a | bsnr r a =>
    exact readsAs_rel fun _ _ => by cases r <;> rfl
  case zbrr a | zbsr a => exact readsAs_rel fun _ _ => rfl
  case bctr v a | bstr v a => exact readsAs_rel fun _ _ => by obtain rfl | rfl | rfl | rfl := condVal_cases v <;> rfl
  case bcfr v a | bsfr v a =>
    obtain rfl | rfl | rfl | rfl := condVal_cases v
    case inr.inr.inr => exact absurd hw (by simp [Instr.wellFormed])
    all_goals exact readsAs_rel fun _ _ => rfl
  case loda r a | stra r a | adda r a | suba r a | anda r a | iora r a | eora r a | coma r a =>
    exact readsAs_abs fun _ _ => by cases r <;> rfl
  case bira r a | bdra r a | brna r a | bsna r a => exact readsAs_br fun _ _ => by cases r <;> rfl
  case bxa a | bsxa a => exact readsAs_br fun _ _ => rfl
  case bcta v a | bsta v a => exact readsAs_br fun _ _ => by obtain rfl | rfl | rfl | rfl := condVal_cases v <;> rfl
  case bcfa v a | bsfa v a =>
    obtain rfl | rfl | rfl | rfl := condVal_cases v
    case inr.inr.inr => exact absurd hw (by simp [Instr.wellFormed])
    all_goals exact readsAs_br fun _ _ => rfl

/-- What a list does not hold is read from the list after it. -/
theorem getD_getD_append (l m : List Byte) (k : Nat) : l.getD k ((l ++ m).getD k 0) = (l ++ m).getD k 0 := by
  rcases Nat.lt_or_ge k l.length with h | h
  · rw [List.getD_append _ _ _ _ h, List.getD_eq_getElem _ _ h, List.getD_eq_getElem _ _ h]
  · rw [List.getD_eq_default _ _ h]

/-- Settles O1: the first byte gives the length, so decoding takes the instruction's own bytes and leaves the rest. -/
theorem decodeOfEncodeIsTheInstr : Obligations.DecodeOfEncodeIsTheInstr := by
  intro i rest hw
  obtain ⟨b0, tl, he, hl⟩ := encodedLength i hw
  have hr := readsAs_encode i hw ((tl ++ rest).getD 0 0) ((tl ++ rest).getD 1 0)
  rw [he] at hl hr ⊢
  simp only [List.getD_cons_zero, List.getD_cons_succ, getD_getD_append] at hr
  rw [List.cons_append, decode_cons hl (by simp) hr]
  simp

/-! From the bytes to the instruction and back, class by class of the opcode map (30_encoding.md R112) -/

/-- Byte 0 of a class and a function, with the register field 0 (30_encoding.md R101). -/
def opcode (fn cls : Nat) : Byte := BitVec.ofNat 8 (32 * fn + 4 * cls)

/-- A byte is its function, its class and its register field. -/
theorem byte0_fields (b : Byte) : byte0 (opcode (functionField b) (classField b)) (registerField b) = b := by
  revert b; decide

theorem functionField_lt (b : Byte) : functionField b < 8 := (b.extractLsb' 5 3).isLt

theorem classField_lt (b : Byte) : classField b < 8 := (b.extractLsb' 2 3).isLt

/-- What the decoder answers is an instruction the encoding admits, and its bytes are these as far as they go. -/
def WritesBack (i : Instr) (bs : List Byte) : Prop := i.wellFormed = true ∧ encode i <+: bs

section
variable {fn : Nat} {x : BitVec 2} {b0 b1 b2 : Byte} {i : Instr}

theorem decodeClass0_writesBack (hf : fn < 8) (h : decodeClass0 fn x = .ok i) :
    WritesBack i [byte0 (opcode fn 0) x, b1, b2] := by
  obtain rfl | rfl | rfl | rfl := Laws.EncodedLength.condVal_cases x <;> interval_cases fn <;> cases h <;>
    exact ⟨rfl, [b1, b2], rfl⟩

theorem decodeClass1_writesBack (hf : fn < 8) (h : decodeClass1 fn b0 (Reg.ofBits x) b1 = .ok i) :
    WritesBack i [byte0 (opcode fn 1) x, b1, b2] := by
  interval_cases fn <;> cases h <;> exact ⟨rfl, [b2], by simp [encode, opcode]⟩

theorem decodeClass2_writesBack (hf : fn < 8) :
    WritesBack (decodeClass2 fn (Reg.ofBits x) (RelArg.ofByte b1)) [byte0 (opcode fn 2) x, b1, b2] := by
  interval_cases fn <;>
    exact ⟨rfl, [b2], by simp [decodeClass2, encode, opcode]⟩

theorem decodeClass3_writesBack (hf : fn < 8) :
    WritesBack (decodeClass3 fn (Reg.ofBits x) (AbsArg.ofBytes b1 b2)) [byte0 (opcode fn 3) x, b1, b2] := by
  interval_cases fn <;>
    exact ⟨rfl, [], by simp [decodeClass3, encode, opcode]⟩

theorem decodeClass4_writesBack (hf : fn < 8) (h : decodeClass4 fn b0 x = .ok i) :
    WritesBack i [byte0 (opcode fn 4) x, b1, b2] := by
  obtain rfl | rfl | rfl | rfl := Laws.EncodedLength.condVal_cases x <;> interval_cases fn <;> cases h <;>
    exact ⟨rfl, [b1, b2], rfl⟩

/-- Functions 0, 1 and 4 of class 5 are one-byte instructions, the others have an immediate byte. -/
theorem decodeClass5_writesBack (hf : fn < 8) (h : decodeClass5 fn b0 x b1 = .ok i) :
    WritesBack i [byte0 (opcode fn 5) x, b1, b2] := by
  obtain rfl | rfl | rfl | rfl := Laws.EncodedLength.condVal_cases x <;> interval_cases fn <;> cases h <;>
    simp [WritesBack, Instr.wellFormed, encode, Reg.ofBits, Reg.toBits, opcode, byte0]

theorem decodeClass6_writesBack (hf : fn < 8) :
    WritesBack (decodeClass6 fn x (RelArg.ofByte b1)) [byte0 (opcode fn 6) x, b1, b2] := by
  obtain rfl | rfl | rfl | rfl := Laws.EncodedLength.condVal_cases x <;> interval_cases fn <;>
    exact ⟨rfl, [b2], by simp [decodeClass6, encode, Reg.ofBits, Reg.toBits, opcode, byte0]⟩

theorem decodeClass7_writesBack (hf : fn < 8) :
    WritesBack (decodeClass7 fn x (BrArg.ofBytes b1 b2)) [byte0 (opcode fn 7) x, b1, b2] := by
  obtain rfl | rfl | rfl | rfl := Laws.EncodedLength.condVal_cases x <;> interval_cases fn <;>
    exact ⟨rfl, [], by simp [decodeClass7, encode, Reg.ofBits, Reg.toBits, opcode, byte0]⟩

theorem decodeBytes_writesBack (h : decodeBytes b0 b1 b2 = .ok i) : WritesBack i [b0, b1, b2] := by
  have hf := functionField_lt b0
  have hc := classField_lt b0
  rw [← byte0_fields b0]
  simp only [decodeBytes] at h
  generalize classField b0 = c at h hc ⊢
  interval_cases c
  · exact decodeClass0_writesBack hf h
  · exact decodeClass1_writesBack hf h
  · cases h; exact decodeClass2_writesBack hf
  · cases h; exact decodeClass3_writesBack hf
  · exact decodeClass4_writesBack hf h
  · exact decodeClass5_writesBack hf h
  · cases h; exact decodeClass6_writesBack hf
  · cases h; exact decodeClass7_writesBack hf

end

/-- The second and third byte, as the decoder reads them, are bytes of the list as far as it goes. -/
theorem prefix_of_prefix_getD {tl bs : List Byte} (hl : tl.length ≤ bs.length)
    (h : tl <+: [bs.getD 0 0, bs.getD 1 0]) : tl <+: bs := by
  rcases bs with _ | ⟨b1, _ | ⟨b2, bs⟩⟩
  · simpa using hl
  · rcases tl with _ | ⟨t1, tl⟩ <;> simp_all
  · exact h.trans ⟨bs, rfl⟩

/-- Settles O2: what the decoder read begins with the instruction's own bytes, and the first byte says how many they are. -/
theorem encodeOfDecodeIsTheBytes : Obligations.EncodeOfDecodeIsTheBytes := by
  intro bs i rest h
  cases bs with
  | nil => cases h
  | cons b0 bs =>
    obtain ⟨n, hn, hle, hi, rfl⟩ := decode_cons_eq_ok h
    obtain ⟨hw, hpre⟩ := decodeBytes_writesBack hi
    refine ⟨hw, ?_⟩
    obtain ⟨c0, tl, he, hl⟩ := encodedLength i hw
    rw [he] at hpre hl ⊢
    obtain ⟨rfl, htl⟩ := List.cons_prefix_cons.mp hpre
    obtain rfl : n = tl.length + 1 := by rw [hn] at hl; injection hl
    have hbs : tl <+: bs := prefix_of_prefix_getD (by omega) htl
    rw [List.cons_append, Nat.add_sub_cancel, ← List.prefix_append_drop hbs]

/-! The bytes that do not decode -/

/-- A first byte that is neither H'00' nor unassigned has a length (30_encoding.md R124). -/
theorem instrLength_assigned {b : Byte} (h0 : b ≠ 0x00) (hu : b ∉ unassignedBytes) : ∃ n, instrLength b = .ok n := by
  simp only [instrLength, if_neg h0, if_neg hu]
  split
  case h_6 => split <;> exact ⟨_, rfl⟩
  all_goals exact ⟨_, rfl⟩

theorem instrLength_unassigned {b : Byte} (hu : b ∈ unassignedBytes) : instrLength b = .error (.unassigned b) := by
  have h0 : b ≠ 0x00 := by rintro rfl; exact absurd hu (by decide)
  rw [instrLength, if_neg h0, if_pos hu]

theorem decode_error {b : Byte} {e : DecodeError} (h : instrLength b = .error e) (rest : List Byte) :
    decode (b :: rest) = .error e := by
  simp only [decode, h]

theorem decode_truncated {b : Byte} {n : Nat} {rest : List Byte} (h : instrLength b = .ok n)
    (hl : (b :: rest).length < n) : decode (b :: rest) = .error .truncated := by
  simp only [decode, h, if_pos (show rest.length + 1 < n from hl)]

/-- Settles O3: by the first byte, and, where it has a length, by whether the bytes are there. -/
theorem decodeFailsOnlyAsTheMapSays : Obligations.DecodeFailsOnlyAsTheMapSays := by
  refine ⟨decode_error rfl, fun b hu => decode_error (instrLength_unassigned hu), rfl, fun b rest h0 hu => ?_⟩
  obtain ⟨n, hn⟩ := instrLength_assigned h0 hu
  obtain ⟨h1, h3, hi⟩ := decodeBytes_of_length hn
  refine ⟨n, hn, h1, h3, decode_truncated hn, fun hl => ?_⟩
  obtain ⟨i, hi⟩ := hi (rest.getD 0 0) (rest.getD 1 0)
  refine ⟨i, ?_⟩
  obtain ⟨k, rfl⟩ := Nat.exists_eq_add_of_le' h1
  exact decode_cons hn hl hi

/-- Settles O4: each word is the encoding of its instruction. -/
theorem writtenWordsDecode : Obligations.WrittenWordsDecode := by
  have word {bs : List Byte} {i : Instr} (hb : encode i = bs) (hw : i.wellFormed = true) : decode bs = .ok (i, []) := by
    subst hb
    simpa using decodeOfEncodeIsTheInstr i [] hw
  exact ⟨word rfl rfl, word rfl rfl, word rfl rfl, word rfl rfl, word rfl rfl, word rfl rfl, word rfl rfl, word rfl rfl,
    word rfl rfl⟩

end Sys2Proof
end

section
/-! What an instruction can do: exec on each family of instructions, the kinds of effect there are, and that every instruction has one of them. The rules over all instructions follow from the kinds. -/

namespace Sys2Proof

open Sys2Proof.Machine

/-! Exec on the branch and call families (46_branch.md, 47_subroutine.md) -/

theorem exec_bctOf (v : CondVal) (f : BranchForm) (s : State) :
    exec (bctOf v f) s = .next (branchIf (condTrue s.psl v) f.ea s) := by cases f <;> rfl

theorem exec_bcfOf (v : CondVal) (f : BranchForm) (s : State) :
    exec (bcfOf v f) s = .next (branchIf (condFalse s.psl v) f.ea s) := by cases f <;> rfl

theorem exec_birOf (r : Reg) (f : BranchForm) (s : State) :
    exec (birOf r f) s = .next (branchIf (readReg r s + 1 != 0) f.ea (countReg r 1 s)) := by cases f <;> rfl

theorem exec_bdrOf (r : Reg) (f : BranchForm) (s : State) :
    exec (bdrOf r f) s = .next (branchIf (readReg r s + 0xFF != 0) f.ea (countReg r 0xFF s)) := by cases f <;> rfl

theorem exec_brnOf (r : Reg) (f : BranchForm) (s : State) :
    exec (brnOf r f) s = .next (branchIf (readReg r s != 0) f.ea s) := by cases f <;> rfl

theorem exec_bstOf (v : CondVal) (f : BranchForm) (s : State) :
    exec (bstOf v f) s = .next (callIf (condTrue s.psl v) f.ea s) := by cases f <;> rfl

theorem exec_bsfOf (v : CondVal) (f : BranchForm) (s : State) :
    exec (bsfOf v f) s = .next (callIf (condFalse s.psl v) f.ea s) := by cases f <;> rfl

theorem exec_bsnOf (r : Reg) (f : BranchForm) (s : State) :
    exec (bsnOf r f) s = .next (callIf (readReg r s != 0) f.ea s) := by cases f <;> rfl

/-! The families -/

/-- The 75 instructions, those that differ in the form of their operand taken together (30_encoding.md R102). -/
inductive Family : Instr → Prop
  | lod (f : Form) : Family (lodOf f)
  | add (f : Form) : Family (addOf f)
  | sub (f : Form) : Family (subOf f)
  | and (f : Form) : Family (andOf f)
  | ior (f : Form) : Family (iorOf f)
  | eor (f : Form) : Family (eorOf f)
  | com (f : Form) : Family (comOfForm f)
  | strz (r : Reg) : Family (.strz r)
  | str (m : MemForm) : Family (strOf m)
  | rrl (r : Reg) : Family (.rrl r)
  | rrr (r : Reg) : Family (.rrr r)
  | lpsu : Family .lpsu
  | lpsl : Family .lpsl
  | spsu : Family .spsu
  | spsl : Family .spsl
  | ppsu (v : Byte) : Family (.ppsu v)
  | ppsl (v : Byte) : Family (.ppsl v)
  | cpsu (v : Byte) : Family (.cpsu v)
  | cpsl (v : Byte) : Family (.cpsl v)
  | tpsu (v : Byte) : Family (.tpsu v)
  | tpsl (v : Byte) : Family (.tpsl v)
  | tmi (r : Reg) (v : Byte) : Family (.tmi r v)
  | zbrr (a : RelArg) : Family (.zbrr a)
  | bxa (a : BrArg) : Family (.bxa a)
  | bct (v : CondVal) (f : BranchForm) : Family (bctOf v f)
  | bcf (v : CondVal) (f : BranchForm) : Family (bcfOf v f)
  | bir (r : Reg) (f : BranchForm) : Family (birOf r f)
  | bdr (r : Reg) (f : BranchForm) : Family (bdrOf r f)
  | brn (r : Reg) (f : BranchForm) : Family (brnOf r f)
  | zbsr (a : RelArg) : Family (.zbsr a)
  | bsxa (a : BrArg) : Family (.bsxa a)
  | bst (v : CondVal) (f : BranchForm) : Family (bstOf v f)
  | bsf (v : CondVal) (f : BranchForm) : Family (bsfOf v f)
  | bsn (r : Reg) (f : BranchForm) : Family (bsnOf r f)
  | retc (v : CondVal) : Family (.retc v)
  | rete (v : CondVal) : Family (.rete v)
  | redd (r : Reg) : Family (.redd r)
  | redc (r : Reg) : Family (.redc r)
  | rede (r : Reg) (d : Byte) : Family (.rede r d)
  | wrtd (r : Reg) : Family (.wrtd r)
  | wrtc (r : Reg) : Family (.wrtc r)
  | wrte (r : Reg) (d : Byte) : Family (.wrte r d)
  | dar (r : Reg) : Family (.dar r)
  | nop : Family .nop
  | halt : Family .halt

theorem family (i : Instr) : Family i := by
  cases i
  case lodz r => exact .lod (.z r)
  case lodi r v => exact .lod (.i r v)
  case lodr r a => exact .lod (.m (.rel r a))
  case loda x a => exact .lod (.m (.abs x a))
  case addz r => exact .add (.z r)
  case addi r v => exact .add (.i r v)
  case addr r a => exact .add (.m (.rel r a))
  case adda x a => exact .add (.m (.abs x a))
  case subz r => exact .sub (.z r)
  case subi r v => exact .sub (.i r v)
  case subr r a => exact .sub (.m (.rel r a))
  case suba x a => exact .sub (.m (.abs x a))
  case andz r => exact .and (.z r)
  case andi r v => exact .and (.i r v)
  case andr r a => exact .and (.m (.rel r a))
  case anda x a => exact .and (.m (.abs x a))
  case iorz r => exact .ior (.z r)
  case iori r v => exact .ior (.i r v)
  case iorr r a => exact .ior (.m (.rel r a))
  case iora x a => exact .ior (.m (.abs x a))
  case eorz r => exact .eor (.z r)
  case eori r v => exact .eor (.i r v)
  case eorr r a => exact .eor (.m (.rel r a))
  case eora x a => exact .eor (.m (.abs x a))
  case comz r => exact .com (.z r)
  case comi r v => exact .com (.i r v)
  case comr r a => exact .com (.m (.rel r a))
  case coma x a => exact .com (.m (.abs x a))
  case strr r a => exact .str (.rel r a)
  case stra x a => exact .str (.abs x a)
  case bctr v a => exact .bct v (.rel a)
  case bcta v a => exact .bct v (.abs a)
  case bcfr v a => exact .bcf v (.rel a)
  case bcfa v a => exact .bcf v (.abs a)
  case birr r a => exact .bir r (.rel a)
  case bira r a => exact .bir r (.abs a)
  case bdrr r a => exact .bdr r (.rel a)
  case bdra r a => exact .bdr r (.abs a)
  case brnr r a => exact .brn r (.rel a)
  case brna r a => exact .brn r (.abs a)
  case bstr v a => exact .bst v (.rel a)
  case bsta v a => exact .bst v (.abs a)
  case bsfr v a => exact .bsf v (.rel a)
  case bsfa v a => exact .bsf v (.abs a)
  case bsnr r a => exact .bsn r (.rel a)
  case bsna r a => exact .bsn r (.abs a)
  all_goals constructor

/-! What a data-handling instruction leaves alone -/

/-- The register bank that PSL.RS does not select holds what it held (10_state.md R22). -/
def otherBankKept (s t : State) : Prop := ∀ q, q ≠ .r0 → regIn (!rsOf s.psl) q t = regIn (!rsOf s.psl) q s

/-- What every instruction leaves alone that neither stores nor branches nor writes the PSU. -/
structure DataStep (s t : State) : Prop where
  quiet : quiet s t
  mem   : t.mem = s.mem
  bank  : otherBankKept s t

theorem BusOnly.dataStep {s u : State} (h : BusOnly s u) : DataStep s u := ⟨h.quiet, h.mem, fun q _ => h.regIn _ q⟩

theorem DataStep.memKept {s t : State} (h : DataStep s t) : memKept s t := fun a => by rw [State.peek, State.peek, h.mem]

theorem DataStep.withPsl {s u : State} (h : DataStep s u) (p : Byte) : DataStep s { u with psl := p } :=
  ⟨h.quiet, h.mem, fun q hq => (by cases q <;> rfl : regIn _ q { u with psl := p } = regIn _ q u).trans (h.bank q hq)⟩

theorem DataStep.writeReg {s u : State} (h : DataStep s u) (hp : u.psl = s.psl) (r : Reg) (v p : Byte) :
    DataStep s { writeReg r v u with psl := p } where
  quiet := h.quiet.trans (quiet_writeReg r v p u)
  mem := by simp [h.mem]
  bank q hq := by
    have := (regsKeptBut_writeReg r v p u).2 q hq
    rw [hp] at this
    exact this.trans (h.bank q hq)

theorem DataStep.drawCC {s u : State} (h : DataStep s u) : DataStep s (drawCC u) where
  quiet := h.quiet.trans ⟨rfl, ⟨rfl, rfl, rfl⟩, rfl, rfl, rfl, rfl, rfl, rfl, rfl, rfl⟩
  mem := h.mem
  bank q hq := (by cases q <;> rfl : regIn _ q (Machine.drawCC u) = regIn _ q u).trans (h.bank q hq)

theorem form_operand_mem (f : Form) (s : State) : (f.operand s).2.mem = s.mem := by
  rcases f with r | ⟨r, v⟩ | (⟨r, a⟩ | ⟨x, a⟩)
  · rfl
  · rfl
  · exact relOperand_mem a s
  · exact absOperand_mem x a s

theorem form_operand_psl (f : Form) (s : State) : (f.operand s).2.psl = s.psl := (form_operand f s).1

theorem form_operand_dataStep (f : Form) (s : State) : DataStep s (f.operand s).2 := by
  obtain ⟨_, hd, hr, _⟩ := form_operand f s
  exact ⟨hd.1, form_operand_mem f s, hr.2⟩

/-! What a branch and a call leave alone -/

structure BranchStep (s t : State) : Prop where
  frame : branchFrame s t
  mem   : t.mem = s.mem
  bank  : otherBankKept s t

structure CallStep (s t : State) : Prop where
  frame : callFrame s t
  mem   : t.mem = s.mem
  bank  : otherBankKept s t

theorem branchFrame.trans {s t u : State} (h : branchFrame s t) (k : branchFrame t u) : branchFrame s u := by
  obtain ⟨a1, ⟨a2, a3, a4⟩, a5, a6, a7, a8, a9, ⟨a10, a11, a12⟩, a13⟩ := h
  obtain ⟨b1, ⟨b2, b3, b4⟩, b5, b6, b7, b8, b9, ⟨b10, b11, b12⟩, b13⟩ := k
  exact ⟨b1.trans a1, ⟨b2.trans a2, b3.trans a3, b4.trans a4⟩, b5.trans a5, b6.trans a6, b7.trans a7, b8.trans a8,
    b9.trans a9, ⟨b10.trans a10, b11.trans a11, b12.trans a12⟩, fun a => (b13 a).trans (a13 a)⟩

theorem BranchStep.trans {s t u : State} (h : BranchStep s t) (k : BranchStep t u) : BranchStep s u :=
  ⟨h.frame.trans k.frame, k.mem.trans h.mem, fun q hq => (h.frame.1 ▸ k.bank q hq).trans (h.bank q hq)⟩

theorem BusOnly.branchStep {s u : State} (h : BusOnly s u) (a : Addr) : BranchStep s { u with iar := a } :=
  ⟨h.branchFrame a, h.mem, fun q _ => by rw [← h.regIn _ q]; cases q <;> rfl⟩

theorem countReg_branchStep (r : Reg) (d : Byte) (s : State) : BranchStep s (countReg r d s) where
  frame := ⟨countReg_psl _ _ _, ⟨countReg_flag _ _ _, countReg_ii _ _ _, countReg_sp _ _ _⟩, countReg_ras _ _ _,
    countReg_intWaiting _ _ _, countReg_runState _ _ _, countReg_ir _ _ _, countReg_fetchedAhead _ _ _,
    by simp [pinsKept], fun a => by simp [State.peek]⟩
  mem := countReg_mem _ _ _
  bank := (regsKeptBut_writeReg' r _ s).2

theorem branchIf_branchStep (taken : Bool) (f : BranchForm) (s : State) : BranchStep s (branchIf taken f.ea s) := by
  cases taken
  case true => exact (branchForm_bus f s).branchStep _
  case false => exact (notTaken_bus (branchForm_bus f s)).branchStep _

theorem pushAndBranch_callStep {ea : Addr × State} {s : State} (h : BusOnly s ea.2) : CallStep s (pushAndBranch ea) := by
  obtain ⟨_, hr, hf, _⟩ := push_frame h
  exact ⟨hf, h.mem, fun q _ => hr _ q⟩

theorem callIf_callStep (taken : Bool) (f : BranchForm) (s : State) : CallStep s (callIf taken f.ea s) := by
  cases taken
  case true => exact pushAndBranch_callStep (branchForm_bus f s)
  case false =>
    have h := notTaken_bus (branchForm_bus f s)
    exact ⟨⟨h.psl, h.flag, h.ii, h.intWaiting, h.runState, h.ir, h.fetchedAhead, h.2, h.peek⟩, h.mem, fun q _ => h.regIn _ q⟩

/-! The kinds of effect -/

/-- The instructions that write the carry bits: adds, subtracts, and rotates with WC = 1 (10_state.md R43). -/
inductive WritesCarry (s : State) : Instr → Prop
  | add (f : Form) : WritesCarry s (addOf f)
  | sub (f : Form) : WritesCarry s (subOf f)
  | rrl (r : Reg) (h : wcOf s.psl = true) : WritesCarry s (.rrl r)
  | rrr (r : Reg) (h : wcOf s.psl = true) : WritesCarry s (.rrr r)

/-- The instructions that write the whole PSL, with the byte written (45_program_status.md R222, R226, R228). -/
inductive WritesPsl (s : State) : Instr → Byte → Prop
  | lpsl : WritesPsl s .lpsl s.r0
  | ppsl (v : Byte) : WritesPsl s (.ppsl v) (s.psl ||| v)
  | cpsl (v : Byte) : WritesPsl s (.cpsl v) (s.psl &&& ~~~v)

/-- The instructions that write the PSU, with the byte written (45_program_status.md R221, R225, R227). -/
inductive WritesPsu (s : State) : Instr → Byte → Prop
  | lpsu : WritesPsu s .lpsu s.r0
  | ppsu (v : Byte) : WritesPsu s (.ppsu v) (psuRead s ||| v)
  | cpsu (v : Byte) : WritesPsu s (.cpsu v) (psuRead s &&& ~~~v)

/-- The subroutine branches (47_subroutine.md R272 to R279). -/
inductive IsCall : Instr → Prop
  | zbsr (a : RelArg) : IsCall (.zbsr a)
  | bsxa (a : BrArg) : IsCall (.bsxa a)
  | bst (v : CondVal) (f : BranchForm) : IsCall (bstOf v f)
  | bsf (v : CondVal) (f : BranchForm) : IsCall (bsfOf v f)
  | bsn (r : Reg) (f : BranchForm) : IsCall (bsnOf r f)

/-- What the instruction i can make of the state s: one constructor for each row of the table of 10_state.md R43. -/
inductive Effect (s : State) : Instr → State → Prop
  /-- A result, an input or a test sets CC, and no other bit of the PSL. -/
  | sign {i : Instr} {t : State} (hi : writesCC i = true) (d : DataStep s t) (hp : onlyCC s.psl t.psl)
      (h3 : ccOf t.psl ≠ 3) : Effect s i t
  | arith {i : Instr} {t : State} (hi : WritesCarry s i) (d : DataStep s t) (hp : controlKept s.psl t.psl)
      (h3 : ccOf t.psl ≠ 3) : Effect s i t
  | adjust {r : Reg} {t : State} (d : DataStep s t) (hp : onlyCC s.psl t.psl) : Effect s (.dar r) t
  /-- NOP and the outputs. -/
  | plain {i : Instr} {t : State} (d : DataStep s t) (hp : t.psl = s.psl) : Effect s i t
  | lower {i : Instr} {p : Byte} (hi : WritesPsl s i p) : Effect s i { s with psl := p }
  | upper {i : Instr} {x : Byte} (hi : WritesPsu s i x) : Effect s i (psuWrite x s)
  | store (m : MemForm) : Effect s (strOf m) (storeAt m.reg (m.ea s))
  | branch {i : Instr} {t : State} (b : BranchStep s t) : Effect s i t
  | call {i : Instr} {t : State} (hi : IsCall i) (c : CallStep s t) : Effect s i t
  | retc (v : CondVal) : Effect s (.retc v) (if condTrue s.psl v then popAndReturn s else s)
  | rete (v : CondVal) : Effect s (.rete v) (if condTrue s.psl v then returnAndEnable s else s)
  | halt : Effect s .halt { s with runState := .waitHalt }

theorem ccMeaning_ne_three (v : Byte) : ccMeaning v ≠ 3 := signCC_eq_ccMeaning v ▸ signCC_ne_three v

/-- A byte put into a register, with CC its sign. -/
theorem effect_loadFrom {i : Instr} {s : State} {m : Byte × State} (r : Reg) (hi : writesCC i = true)
    (d : DataStep s m.2) (hp : m.2.psl = s.psl) : Effect s i (loadFrom r m) :=
  .sign hi (d.writeReg hp r _ _) (by rw [loadFrom_psl, hp]; exact onlyCC_setCC _ _)
    (by rw [loadFrom_psl, ccOf_setCC]; exact ccMeaning_ne_three _)

/-- CC alone set, to something other than 11. -/
theorem effect_putCC {i : Instr} {s u : State} {cc : BitVec 2} (hi : writesCC i = true) (d : DataStep s u)
    (hp : u.psl = s.psl) (h3 : cc ≠ 3) : Effect s i (putCC cc u) :=
  .sign hi (d.withPsl _) (by rw [putCC_psl, hp]; exact onlyCC_withCC _ _) (by rw [putCC_psl, ccOf_withCC]; exact h3)

/-- A rotated register: only with WC = 1 more of the PSL than CC changes (44_rotate.md R210). -/
theorem effect_rotate {i : Instr} {s : State} (r : Reg) (v : Byte) (res : Byte) (c : Bool) (hi : writesCC i = true)
    (hc : wcOf s.psl = true → WritesCarry s i) : Effect s i (putResult r (res, rotatePsl s.psl v res c) s) := by
  have d : DataStep s (putResult r (res, rotatePsl s.psl v res c) s) := (BusOnly.refl s).dataStep.writeReg rfl _ _ _
  cases hw : wcOf s.psl
  case true =>
    refine .arith (hc hw) d ?_ ?_ <;> rw [putResult_psl, rotatePsl_spec, if_pos hw]
    · exact controlKept_withArith _ _ _ _ _
    · rw [ccOf_withArith]; exact ccMeaning_ne_three _
  case false =>
    refine .sign hi d ?_ ?_ <;> rw [putResult_psl, rotatePsl_spec, hw, if_neg Bool.false_ne_true]
    · exact onlyCC_withCC _ _
    · rw [ccOf_withCC]; exact ccMeaning_ne_three _

theorem addTo_effect {s : State} (f : Form) {m : Byte × State} (d : DataStep s m.2) (hp : m.2.psl = s.psl) (r : Reg) :
    Effect s (addOf f) (addTo r m) := by
  have h := (add8_spec m.2.psl (readReg r m.2) m.1).2
  refine .arith (.add f) (d.writeReg hp _ _ _) ?_ ?_ <;> rw [addTo_psl, h]
  · rw [hp]; exact controlKept_withArith _ _ _ _ _
  · rw [ccOf_withArith]; exact ccMeaning_ne_three _

theorem subFrom_effect {s : State} (f : Form) {m : Byte × State} (d : DataStep s m.2) (hp : m.2.psl = s.psl) (r : Reg) :
    Effect s (subOf f) (subFrom r m) := by
  have h := (sub8_spec m.2.psl (readReg r m.2) m.1).2
  refine .arith (.sub f) (d.writeReg hp _ _ _) ?_ ?_ <;> rw [subFrom_psl, h]
  · rw [hp]; exact controlKept_withArith _ _ _ _ _
  · rw [ccOf_withArith]; exact ccMeaning_ne_three _

/-- The loads, the logical instructions and the compares are listed under CC (10_state.md R43). -/
theorem writesCC_forms (f : Form) : writesCC (lodOf f) = true ∧ writesCC (andOf f) = true ∧ writesCC (iorOf f) = true ∧
    writesCC (eorOf f) = true ∧ writesCC (comOfForm f) = true := by
  rcases f with r | ⟨r, v⟩ | (⟨r, a⟩ | ⟨x, a⟩) <;> exact ⟨rfl, rfl, rfl, rfl, rfl⟩

/-- Every instruction completes, with one of these effects. -/
theorem exec_effect (i : Instr) (s : State) : ∃ t, exec i s = .next t ∧ Effect s i t := by
  have d := form_operand_dataStep (s := s)
  have p := form_operand_psl (s := s)
  have here : DataStep s s := (BusOnly.refl s).dataStep
  cases family i
  case lod f => exact ⟨_, exec_lodOf f s, effect_loadFrom _ (writesCC_forms f).1 (d f) (p f)⟩
  case and f => exact ⟨_, exec_andOf f s, effect_loadFrom (m := (_, _)) _ (writesCC_forms f).2.1 (d f) (p f)⟩
  case ior f => exact ⟨_, exec_iorOf f s, effect_loadFrom (m := (_, _)) _ (writesCC_forms f).2.2.1 (d f) (p f)⟩
  case eor f => exact ⟨_, exec_eorOf f s, effect_loadFrom (m := (_, _)) _ (writesCC_forms f).2.2.2.1 (d f) (p f)⟩
  case com f => exact ⟨_, exec_comOfForm f s, effect_putCC (writesCC_forms f).2.2.2.2 (d f) (p f) (compareCC_ne_three _ _ _)⟩
  case add f => exact ⟨_, exec_addOf f s, addTo_effect f (d f) (p f) _⟩
  case sub f => exact ⟨_, exec_subOf f s, subFrom_effect f (d f) (p f) _⟩
  case strz r => exact ⟨_, rfl, effect_loadFrom (m := (_, _)) r rfl here rfl⟩
  case str m => exact ⟨_, exec_strOf m s, .store m⟩
  case rrl r => exact ⟨_, rfl, effect_rotate r _ _ _ rfl (.rrl r)⟩
  case rrr r => exact ⟨_, rfl, effect_rotate r _ _ _ rfl (.rrr r)⟩
  case lpsu => exact ⟨_, rfl, .upper .lpsu⟩
  case ppsu v => exact ⟨_, rfl, .upper (.ppsu v)⟩
  case cpsu v => exact ⟨_, rfl, .upper (.cpsu v)⟩
  case lpsl => exact ⟨_, rfl, .lower .lpsl⟩
  case ppsl v => exact ⟨_, rfl, .lower (.ppsl v)⟩
  case cpsl v => exact ⟨_, rfl, .lower (.cpsl v)⟩
  case spsu => exact ⟨_, rfl, effect_loadFrom (m := (_, _)) .r0 rfl here rfl⟩
  case spsl => exact ⟨_, rfl, effect_loadFrom (m := (_, _)) .r0 rfl here rfl⟩
  case tpsu v => exact ⟨_, rfl, effect_putCC rfl here rfl (testCC_ne_three _ _)⟩
  case tpsl v => exact ⟨_, rfl, effect_putCC rfl here rfl (testCC_ne_three _ _)⟩
  case tmi r v => exact ⟨_, rfl, effect_putCC rfl here rfl (testCC_ne_three _ _)⟩
  case zbrr a => exact ⟨_, rfl, .branch ((zeroRelEA_bus a s).branchStep _)⟩
  case bxa a => exact ⟨_, rfl, .branch ((indexedBranchEA_bus a s).branchStep _)⟩
  case bct v f => exact ⟨_, exec_bctOf v f s, .branch (branchIf_branchStep _ f s)⟩
  case bcf v f => exact ⟨_, exec_bcfOf v f s, .branch (branchIf_branchStep _ f s)⟩
  case brn r f => exact ⟨_, exec_brnOf r f s, .branch (branchIf_branchStep _ f s)⟩
  case bir r f => exact ⟨_, exec_birOf r f s, .branch ((countReg_branchStep r 1 s).trans (branchIf_branchStep _ f _))⟩
  case bdr r f => exact ⟨_, exec_bdrOf r f s, .branch ((countReg_branchStep r 0xFF s).trans (branchIf_branchStep _ f _))⟩
  case zbsr a => exact ⟨_, rfl, .call (.zbsr a) (pushAndBranch_callStep (zeroRelEA_bus a s))⟩
  case bsxa a => exact ⟨_, rfl, .call (.bsxa a) (pushAndBranch_callStep (indexedBranchEA_bus a s))⟩
  case bst v f => exact ⟨_, exec_bstOf v f s, .call (.bst v f) (callIf_callStep _ f s)⟩
  case bsf v f => exact ⟨_, exec_bsfOf v f s, .call (.bsf v f) (callIf_callStep _ f s)⟩
  case bsn r f => exact ⟨_, exec_bsnOf r f s, .call (.bsn r f) (callIf_callStep _ f s)⟩
  case retc v => exact ⟨_, rfl, .retc v⟩
  case rete v => exact ⟨_, rfl, .rete v⟩
  case redd r => exact ⟨_, rfl, effect_loadFrom r rfl (portRead_bus .data s).dataStep (portRead_psl _ _)⟩
  case redc r => exact ⟨_, rfl, effect_loadFrom r rfl (portRead_bus .control s).dataStep (portRead_psl _ _)⟩
  case rede r v => exact ⟨_, rfl, effect_loadFrom r rfl (extRead_bus v s).dataStep (extRead_psl _ _)⟩
  case wrtd r => exact ⟨_, rfl, .plain (record_bus _ s).dataStep rfl⟩
  case wrtc r => exact ⟨_, rfl, .plain (record_bus _ s).dataStep rfl⟩
  case wrte r v => exact ⟨_, rfl, .plain (record_bus _ s).dataStep rfl⟩
  case nop => exact ⟨_, rfl, .plain here rfl⟩
  case halt => exact ⟨_, rfl, .halt⟩
  case dar r =>
    refine ⟨_, rfl, .adjust (writeReg_with_psl r _ s ▸ here.writeReg rfl r _ s.psl).drawCC ?_⟩
    rw [drawCC_psl, writeReg_psl]
    exact onlyCC_withCC _ _

theorem effect_of_exec {i : Instr} {s t : State} (h : exec i s = .next t) : Effect s i t := by
  obtain ⟨u, hu, e⟩ := exec_effect i s
  cases hu.symm.trans h
  exact e

end Sys2Proof
end

section
/-! The rules over all instructions (10_state.md R22, R28 to R43; 20_memory.md R69; 60_exceptions.md R340), each by the kinds of effect. -/

namespace Sys2Proof

open Sys2Proof.Machine

theorem onlyCC_refl (p : Byte) : onlyCC p p := ⟨rfl, rfl, rfl, rfl, rfl, rfl⟩

section
variable {i : Instr} {s t : State}

/-! Completion -/

/-- What only HALT may change, and what no instruction changes. -/
theorem Effect.control (e : Effect s i t) :
    (i ≠ .halt → t.runState = s.runState) ∧ t.intWaiting = s.intWaiting ∧ t.ir = s.ir ∧
      t.fetchedAhead = s.fetchedAhead ∧ pinsKept s t := by
  have same (u : State) : pinsKept u u := ⟨rfl, rfl, rfl⟩
  have data {u : State} (d : DataStep s u) : (i ≠ .halt → u.runState = s.runState) ∧ u.intWaiting = s.intWaiting ∧
      u.ir = s.ir ∧ u.fetchedAhead = s.fetchedAhead ∧ pinsKept s u := by
    obtain ⟨_, _, _, hw, hr, hir, hf, hp⟩ := d.quiet
    exact ⟨fun _ => hr, hw, hir, hf, hp⟩
  cases e
  case sign d _ _ => exact data d
  case arith d _ _ => exact data d
  case adjust d _ => exact data d
  case plain d _ => exact data d
  case lower => exact ⟨fun _ => rfl, rfl, rfl, rfl, same _⟩
  case upper => exact ⟨fun _ => rfl, rfl, rfl, rfl, same _⟩
  case store m =>
    obtain ⟨_, _, _, hw, hr, hir, hf, hp⟩ := (memForm_ea m s).2.1.1
    refine ⟨fun _ => ?_, ?_, ?_, ?_, ?_⟩
    · rw [storeAt_runState, hr]
    · rw [storeAt_intWaiting, hw]
    · rw [storeAt_ir, hir]
    · rw [storeAt_fetchedAhead, hf]
    · exact ⟨(storeAt_platform _ _).trans hp.1, (storeAt_now _ _).trans hp.2.1, (storeAt_later _ _).trans hp.2.2⟩
  case branch b =>
    obtain ⟨_, _, _, hw, hr, hir, hf, hp, _⟩ := b.frame
    exact ⟨fun _ => hr, hw, hir, hf, hp⟩
  case call c =>
    obtain ⟨_, _, _, hw, hr, hir, hf, hp, _⟩ := c.frame
    exact ⟨fun _ => hr, hw, hir, hf, hp⟩
  case retc v => split <;> exact ⟨fun _ => rfl, rfl, rfl, rfl, same _⟩
  case rete v => split <;> exact ⟨fun _ => rfl, rfl, rfl, rfl, same _⟩
  case halt => exact ⟨fun h => absurd rfl h, rfl, rfl, rfl, same _⟩

/-! What each kind of effect does to one part of the state -/

theorem storeAt_ea_psl (m : MemForm) (s : State) : (storeAt m.reg (m.ea s)).psl = s.psl :=
  (storeAt_psl _ _).trans (memForm_ea m s).1

/-- The PSL (10_state.md R33, R43). -/
theorem Effect.psl (e : Effect s i t) :
    t.psl = s.psl ∨ (writesCC i = true ∧ onlyCC s.psl t.psl ∧ ccOf t.psl ≠ 3) ∨
      (WritesCarry s i ∧ controlKept s.psl t.psl ∧ ccOf t.psl ≠ 3) ∨ ((∃ r, i = .dar r) ∧ onlyCC s.psl t.psl) ∨
      WritesPsl s i t.psl := by
  cases e
  case sign hi _ hp h3 => exact .inr (.inl ⟨hi, hp, h3⟩)
  case arith hi _ hp h3 => exact .inr (.inr (.inl ⟨hi, hp, h3⟩))
  case adjust r _ hp => exact .inr (.inr (.inr (.inl ⟨⟨r, rfl⟩, hp⟩)))
  case plain _ hp => exact .inl hp
  case lower p hi => exact .inr (.inr (.inr (.inr hi)))
  case upper => exact .inl rfl
  case store m => exact .inl (storeAt_ea_psl m s)
  case branch b => exact .inl b.frame.1
  case call c => exact .inl c.frame.1
  case retc v => left; split <;> rfl
  case rete v => left; split <;> rfl
  case halt => exact .inl rfl

/-- F, II, SP and the return address stack (10_state.md R28, R29, R31, R32). -/
theorem Effect.psu (e : Effect s i t) :
    (psuKept s t ∧ t.ras = s.ras) ∨ ((∃ x, WritesPsu s i x) ∧ t.ras = s.ras) ∨ (IsCall i ∧ t.flag = s.flag ∧ t.ii = s.ii) ∨
      ((∃ v, i = .retc v) ∧ t.flag = s.flag ∧ t.ii = s.ii ∧ t.ras = s.ras) ∨
      ((∃ v, i = .rete v) ∧ t.flag = s.flag ∧ t.ras = s.ras) := by
  have data {u : State} (q : quiet s u) : psuKept s u ∧ u.ras = s.ras := ⟨q.2.1, q.2.2.1⟩
  cases e
  case sign d _ _ => exact .inl (data d.quiet)
  case arith d _ _ => exact .inl (data d.quiet)
  case adjust d _ => exact .inl (data d.quiet)
  case plain d _ => exact .inl (data d.quiet)
  case lower => exact .inl ⟨⟨rfl, rfl, rfl⟩, rfl⟩
  case upper x hi => exact .inr (.inl ⟨⟨x, hi⟩, rfl⟩)
  case store m =>
    obtain ⟨⟨hf, hi, hsp⟩, hr⟩ := data (memForm_ea m s).2.1.1
    exact .inl ⟨⟨(storeAt_flag _ _).trans hf, (storeAt_ii _ _).trans hi, (storeAt_sp _ _).trans hsp⟩, (storeAt_ras _ _).trans hr⟩
  case branch b =>
    obtain ⟨_, hp, hr, _⟩ := b.frame
    exact .inl ⟨hp, hr⟩
  case call hi c =>
    obtain ⟨_, hf, hii, _⟩ := c.frame
    exact .inr (.inr (.inl ⟨hi, hf, hii⟩))
  case retc v => exact .inr (.inr (.inr (.inl ⟨⟨v, rfl⟩, by split <;> rfl, by split <;> rfl, by split <;> rfl⟩)))
  case rete v => exact .inr (.inr (.inr (.inr ⟨⟨v, rfl⟩, by split <;> rfl, by split <;> rfl⟩)))
  case halt => exact .inl ⟨⟨rfl, rfl, rfl⟩, rfl⟩

/-- Memory (20_memory.md R69). -/
theorem Effect.mem (e : Effect s i t) : t.mem = s.mem ∨ ∃ m, i = strOf m ∧ t = storeAt m.reg (m.ea s) := by
  cases e
  case sign d _ _ => exact .inl d.mem
  case arith d _ _ => exact .inl d.mem
  case adjust d _ => exact .inl d.mem
  case plain d _ => exact .inl d.mem
  case lower => exact .inl rfl
  case upper => exact .inl rfl
  case store m => exact .inr ⟨m, rfl, rfl⟩
  case branch b => exact .inl b.mem
  case call c => exact .inl c.mem
  case retc v => left; split <;> rfl
  case rete v => left; split <;> rfl
  case halt => exact .inl rfl

/-- The register bank not selected (10_state.md R22). -/
theorem Effect.bank (e : Effect s i t) : otherBankKept s t := by
  cases e
  case sign d _ _ => exact d.bank
  case arith d _ _ => exact d.bank
  case adjust d _ => exact d.bank
  case plain d _ => exact d.bank
  case lower => intro q _; cases q <;> rfl
  case upper => intro q _; cases q <;> rfl
  case store m =>
    intro q hq
    exact ((memWrite_keeps _ _ _).1 _ q).trans ((memForm_ea m s).2.2.1.2 q hq)
  case branch b => exact b.bank
  case call c => exact c.bank
  case retc v => intro q _; split <;> cases q <;> rfl
  case rete v => intro q _; split <;> cases q <;> rfl
  case halt => intro q _; cases q <;> rfl

/-! The status bits -/

theorem WritesPsl.instr {p : Byte} (h : WritesPsl s i p) : i = .lpsl ∨ (∃ v, i = .ppsl v) ∨ ∃ v, i = .cpsl v := by
  cases h
  case lpsl => exact .inl rfl
  case ppsl v => exact .inr (.inl ⟨v, rfl⟩)
  case cpsl v => exact .inr (.inr ⟨v, rfl⟩)

theorem WritesPsu.instr {x : Byte} (h : WritesPsu s i x) : i = .lpsu ∨ (∃ v, i = .ppsu v) ∨ ∃ v, i = .cpsu v := by
  cases h
  case lpsu => exact .inl rfl
  case ppsu v => exact .inr (.inl ⟨v, rfl⟩)
  case cpsu v => exact .inr (.inr ⟨v, rfl⟩)

theorem WritesPsl.writesCC {p : Byte} (h : WritesPsl s i p) : writesCC i = true := by cases h <;> rfl

theorem WritesCarry.writesCC (h : WritesCarry s i) : writesCC i = true := by
  cases h
  case add f => rcases f with r | ⟨r, v⟩ | (⟨r, a⟩ | ⟨x, a⟩) <;> rfl
  case sub f => rcases f with r | ⟨r, v⟩ | (⟨r, a⟩ | ⟨x, a⟩) <;> rfl
  case rrl => rfl
  case rrr => rfl

theorem WritesPsu.writesSP {x : Byte} (h : WritesPsu s i x) : writesSP i = true := by cases h <;> rfl

theorem IsCall.writesSP (h : IsCall i) : writesSP i = true := by
  cases h
  case zbsr => rfl
  case bsxa => rfl
  case bst f => cases f <;> rfl
  case bsf f => cases f <;> rfl
  case bsn f => cases f <;> rfl

/-- What the table keeps of the PSL for an instruction that does not write it whole. -/
theorem Effect.psl_tabulated (e : Effect s i t) (h1 : i ≠ .lpsl) (h2 : ∀ v, i ≠ .ppsl v) (h3 : ∀ v, i ≠ .cpsl v) :
    controlKept s.psl t.psl ∧ ((∀ f, i ≠ addOf f) → (∀ f, i ≠ subOf f) →
      (wcOf s.psl = true → (∀ r, i ≠ .rrl r) ∧ ∀ r, i ≠ .rrr r) → onlyCC s.psl t.psl) := by
  rcases e.psl with h | ⟨_, h, _⟩ | ⟨hi, h, _⟩ | ⟨_, h⟩ | hi
  · exact h ▸ ⟨(onlyCC_refl _).controlKept, fun _ _ _ => onlyCC_refl _⟩
  · exact ⟨h.controlKept, fun _ _ _ => h⟩
  · refine ⟨h, fun ha hs hr => ?_⟩
    cases hi
    case add f => exact absurd rfl (ha f)
    case sub f => exact absurd rfl (hs f)
    case rrl r hw => exact absurd rfl ((hr hw).1 r)
    case rrr r hw => exact absurd rfl ((hr hw).2 r)
  · exact ⟨h.controlKept, fun _ _ _ => h⟩
  · rcases hi.instr with rfl | ⟨v, rfl⟩ | ⟨v, rfl⟩
    · exact absurd rfl h1
    · exact absurd rfl (h2 v)
    · exact absurd rfl (h3 v)

theorem Effect.psl_of_not_writesCC (e : Effect s i t) (h : writesCC i = false) : t.psl = s.psl := by
  rcases e.psl with hp | ⟨hi, _⟩ | ⟨hi, _⟩ | ⟨⟨r, rfl⟩, _⟩ | hi
  · exact hp
  · exact absurd hi (by simp [h])
  · exact absurd hi.writesCC (by simp [h])
  · exact absurd h (by simp [writesCC])
  · exact absurd hi.writesCC (by simp [h])

theorem Effect.sp_of_not_writesSP (e : Effect s i t) (h : writesSP i = false) : t.sp = s.sp := by
  rcases e.psu with ⟨hp, _⟩ | ⟨⟨x, hi⟩, _⟩ | ⟨hi, _⟩ | ⟨⟨v, rfl⟩, _⟩ | ⟨⟨v, rfl⟩, _⟩
  · exact hp.2.2
  · exact absurd hi.writesSP (by simp [h])
  · exact absurd hi.writesSP (by simp [h])
  · exact absurd h (by simp [writesSP])
  · exact absurd h (by simp [writesSP])

theorem Effect.flag_ii_tabulated (e : Effect s i t) (h1 : i ≠ .lpsu) (h2 : ∀ v, i ≠ .ppsu v) (h3 : ∀ v, i ≠ .cpsu v) :
    t.flag = s.flag ∧ ((∀ v, i ≠ .rete v) → t.ii = s.ii) := by
  rcases e.psu with ⟨hp, _⟩ | ⟨⟨x, hi⟩, _⟩ | ⟨_, hf, hii⟩ | ⟨_, hf, hii, _⟩ | ⟨⟨v, rfl⟩, hf, _⟩
  · exact ⟨hp.1, fun _ => hp.2.1⟩
  · rcases hi.instr with rfl | ⟨v, rfl⟩ | ⟨v, rfl⟩
    · exact absurd rfl h1
    · exact absurd rfl (h2 v)
    · exact absurd rfl (h3 v)
  · exact ⟨hf, fun _ => hii⟩
  · exact ⟨hf, fun _ => hii⟩
  · exact ⟨hf, fun h => absurd rfl (h v)⟩

theorem Effect.stack_tabulated (e : Effect s i t) (hc : ¬ IsCall i) :
    t.ras = s.ras ∧ (i ≠ .lpsu → (∀ v, i ≠ .ppsu v) → (∀ v, i ≠ .cpsu v) → (∀ v, i ≠ .retc v) → (∀ v, i ≠ .rete v) →
      t.sp = s.sp) := by
  rcases e.psu with ⟨hp, hr⟩ | ⟨⟨x, hi⟩, hr⟩ | ⟨hi, _⟩ | ⟨⟨v, rfl⟩, _, _, hr⟩ | ⟨⟨v, rfl⟩, _, hr⟩
  · exact ⟨hr, fun _ _ _ _ _ => hp.2.2⟩
  · refine ⟨hr, fun h1 h2 h3 _ _ => ?_⟩
    rcases hi.instr with rfl | ⟨v, rfl⟩ | ⟨v, rfl⟩
    · exact absurd rfl h1
    · exact absurd rfl (h2 v)
    · exact absurd rfl (h3 v)
  · exact absurd hi hc
  · exact ⟨hr, fun _ _ _ h _ => absurd rfl (h v)⟩
  · exact ⟨hr, fun _ _ _ _ h => absurd rfl (h v)⟩

/-- Clearing bits of the PSL does not make CC 11. -/
theorem ccOf_and_ne_three {p : Byte} (m : Byte) (h : ccOf p ≠ 3) : ccOf (p &&& m) ≠ 3 := by
  have key : ∀ a b : BitVec 2, a ≠ 3 → a &&& b ≠ 3 := by decide
  rw [ccOf, BitVec.extractLsb'_and]
  exact key _ _ h

theorem Effect.cc_ne_three (e : Effect s i t) (h1 : i ≠ .lpsl) (h2 : ∀ v, i ≠ .ppsl v) (hd : ∀ r, i ≠ .dar r)
    (h3 : ccOf s.psl ≠ 3) : ccOf t.psl ≠ 3 := by
  rcases e.psl with h | ⟨_, _, h⟩ | ⟨_, _, h⟩ | ⟨⟨r, rfl⟩, _⟩ | hi
  · rw [h]; exact h3
  · exact h
  · exact h
  · exact absurd rfl (hd r)
  · generalize t.psl = p at hi ⊢
    cases hi
    case lpsl => exact absurd rfl h1
    case ppsl v => exact absurd rfl (h2 v)
    case cpsl v => exact ccOf_and_ne_three _ h3

end

/-! The obligations -/

/-- Settles O14. -/
theorem onlyStoresWriteMemory : Obligations.OnlyStoresWriteMemory := by
  intro i s t hi h a
  rcases (effect_of_exec h).mem with hm | ⟨m, rfl, _⟩
  · rw [State.peek, State.peek, hm]
  · exact absurd rfl (hi m)

/-- Settles O43. -/
theorem everyInstructionCompletes : Obligations.EveryInstructionCompletes := by
  intro i s
  obtain ⟨t, h, e⟩ := exec_effect i s
  exact ⟨t, h, e.control⟩

/-- Settles O44. -/
theorem statusBitsChangeOnlyAsTabulated : Obligations.StatusBitsChangeOnlyAsTabulated := by
  intro i s t h
  have e := effect_of_exec h
  exact ⟨e.psl_tabulated, e.flag_ii_tabulated, e.psl_of_not_writesCC, e.sp_of_not_writesSP⟩

/-- Settles O45. -/
theorem conditionCodeNeverSetToThree : Obligations.ConditionCodeNeverSetToThree :=
  fun _ _ _ h => (effect_of_exec h).cc_ne_three

/-- Settles O46. -/
theorem stackChangesOnlyByCallsAndReturns : Obligations.StackChangesOnlyByCallsAndReturns := by
  intro i s t h hzbsr hbsxa hbst hbsf hbsn
  refine (effect_of_exec h).stack_tabulated fun hc => ?_
  cases hc
  case zbsr a => exact hzbsr a rfl
  case bsxa a => exact hbsxa a rfl
  case bst v f => exact hbst v f rfl
  case bsf v f => exact hbsf v f rfl
  case bsn r f => exact hbsn r f rfl

/-- Bit 4 of H'10' is RS (10_state.md R38). -/
theorem rsOf_set (p : Byte) : rsOf (p ||| 0x10) = true ∧ rsOf (p &&& ~~~0x10) = false := by
  simp [rsOf]

/-- Settles O47: the other bank by the kinds of effect; PPSL and CPSL of RS change no register. -/
theorem unselectedBankIsKept : Obligations.UnselectedBankIsKept := by
  refine ⟨fun i s t h => (effect_of_exec h).bank, fun s => ⟨_, _, rfl, rfl, fun q => ?_⟩⟩
  obtain ⟨hset, hclear⟩ := rsOf_set s.psl
  simp only [regNow, hset, hclear]
  exact ⟨by cases q <;> rfl, by cases q <;> rfl⟩

end Sys2Proof
end

section
/-! What a step can make of memory (20_memory.md R60, R63, R75): only stores into RAM, so that the canonical form and every byte that is not RAM are kept. Said of each part of a step, then of the step. -/

namespace Sys2Proof

open Sys2Proof.Machine

/-- From s to t memory changed by stores into RAM only, and the platform not at all. -/
structure RamOnly (s t : State) : Prop where
  platform  : t.env.platform = s.env.platform
  readOnly  : ∀ a, s.env.kindAt a ≠ .ram → t.peek a = s.peek a
  canonical : canonical s → canonical t

section
variable {s t u : State}

theorem RamOnly.trans (h : RamOnly s t) (k : RamOnly t u) : RamOnly s u where
  platform := k.platform.trans h.platform
  readOnly a ha := (k.readOnly a (by rwa [kindAt_congr h.platform])).trans (h.readOnly a ha)
  canonical hs := k.canonical (h.canonical hs)

/-! Fetching the bytes of an instruction -/

/-- From s to u bytes were fetched: only IAR and the bus data may differ. -/
def FetchOnly (s u : State) : Prop := BusOnly { s with iar := u.iar } u

theorem FetchOnly.trans (h : FetchOnly s t) (k : FetchOnly t u) : FetchOnly s u := by
  refine ⟨?_, k.2.1.trans h.2.1, k.2.2.1.trans h.2.2.1, k.2.2.2.trans h.2.2.2⟩
  rw [k.1, h.1]

theorem fetchWhen_fetchOnly (has : Bool) (s : State) : FetchOnly s (fetchWhen has s).2 := by
  cases has
  case true => exact fetchByte_bus s
  case false => exact .refl s

/-- A first byte that has a length runs an instruction, after the other bytes are fetched (30_encoding.md R100, R124). -/
theorem runDecoded_of_length {b0 : Byte} {n : Nat} (h : instrLength b0 = .ok n) (addr : Addr) (s : State) :
    ∃ i u, runDecoded addr b0 s = exec i u ∧ FetchOnly s u := by
  let m1 := fetchWhen (decide (2 ≤ n)) s
  let m2 := fetchWhen (decide (3 ≤ n)) m1.2
  obtain ⟨i, hi⟩ := (decodeBytes_of_length h).2.2 m1.1 m2.1
  exact ⟨i, m2.2, by simp only [runDecoded, h, m1, m2, hi] at hi ⊢, (fetchWhen_fetchOnly _ s).trans (fetchWhen_fetchOnly _ _)⟩

theorem runDecoded_of_error {b0 : Byte} {e : DecodeError} (h : instrLength b0 = .error e) (addr : Addr) (s : State) :
    runDecoded addr b0 s = noMnemonic addr b0 e s := by
  simp only [runDecoded, h]

/-! The parts of a step -/

theorem RamOnly.of_mem_eq (hm : t.mem = s.mem) (hp : t.env.platform = s.env.platform) : RamOnly s t where
  platform := hp
  readOnly a _ := by rw [State.peek, State.peek, hm]
  canonical hs := by rwa [Sys2Proof.canonical, hm]

theorem BusOnly.ramOnly (h : BusOnly s t) : RamOnly s t := .of_mem_eq h.mem h.platform

theorem memWrite_ramOnly (a : Addr) (v : Byte) (s : State) : RamOnly s (memWrite a v s) where
  platform := memWrite_platform a v s
  readOnly b hb := by
    rw [peek_memWrite, if_neg]
    rintro ⟨ha, rfl⟩
    exact hb ha
  canonical := memWrite_wf a v

/-- A DMA write reaches RAM or nothing (20_memory.md R76). -/
theorem dmaWrite_ramOnly (w : Addr × Byte) (s : State) : RamOnly s (dmaWrite w s) := by
  rcases dmaWrite_cases w s with ⟨h, e⟩ | ⟨_, e⟩ <;> rw [e]
  · have : memWrite w.1 w.2 s = { s with mem := Memory.put s.mem w.1.toNat w.2 } := by simp only [memWrite, h]
    exact this ▸ memWrite_ramOnly w.1 w.2 s
  · exact .of_mem_eq rfl rfl

theorem dmaWrites_ramOnly (ws : List (Addr × Byte)) (s : State) : RamOnly s (dmaWrites ws s) := by
  induction ws generalizing s with
  | nil => exact .of_mem_eq rfl rfl
  | cons w ws ih => exact (dmaWrite_ramOnly w s).trans (ih _)

theorem memForm_ea_mem (m : MemForm) (s : State) : (m.ea s).2.mem = s.mem := by
  cases m
  case rel => exact relEA_mem _ s
  case abs => exact absEA_mem _ _ s

theorem exec_ramOnly {i : Instr} (h : exec i s = .next t) : RamOnly s t := by
  have e := effect_of_exec h
  rcases e.mem with hm | ⟨m, rfl, rfl⟩
  · exact .of_mem_eq hm e.control.2.2.2.2.1
  · obtain ⟨_, hd, _, _⟩ := memForm_ea m s
    exact (RamOnly.of_mem_eq (memForm_ea_mem m s) hd.1.2.2.2.2.2.2.2.1).trans (memWrite_ramOnly _ _ _)

theorem anyState_ramOnly (s : State) : RamOnly s (anyState s) := by
  obtain ⟨f, hm, _, hp, _⟩ := anyState_outside s
  exact ⟨hp, fun a ha => by rw [State.peek, hm]; exact performAll_readOnly (s := countDraw s) ha,
    fun hs => by rw [canonical, hm]; exact performAll_wf (s := countDraw s) hs⟩

theorem noMnemonic_ramOnly {addr : Addr} {b0 : Byte} {e : DecodeError} (h : noMnemonic addr b0 e s = .next t) :
    RamOnly s t := by
  simp only [noMnemonic] at h
  split at h <;> cases h
  exact anyState_ramOnly s

theorem runDecoded_ramOnly {addr : Addr} {b0 : Byte} (h : runDecoded addr b0 s = .next t) : RamOnly s t := by
  cases hl : instrLength b0 with
  | error e => exact noMnemonic_ramOnly (runDecoded_of_error hl addr s ▸ h)
  | ok n =>
    obtain ⟨i, u, hr, hf⟩ := runDecoded_of_length hl addr s
    have fetched : RamOnly s u := .of_mem_eq hf.mem hf.platform
    exact fetched.trans (exec_ramOnly (hr ▸ h))

theorem runInstr_ramOnly (h : runInstr s = .next t) : RamOnly s t :=
  (RamOnly.of_mem_eq (t := { (fetchByte s).2 with ir := (fetchByte s).1, fetchedAhead := true }) (by simp) (by simp)).trans
    (runDecoded_ramOnly h)

theorem interruptEntry_ramOnly (s : State) : RamOnly s (interruptEntry s) := by
  obtain ⟨e, h, hp, _⟩ := interruptEntry_eq s
  rw [h]
  exact .of_mem_eq rfl hp

theorem interruptEntry_discarded_ramOnly (s : State) : RamOnly s (interruptEntry (discardedFetch s)) := by
  obtain ⟨e, h, hp, _⟩ := interruptEntry_discarded s
  rw [h]
  exact .of_mem_eq rfl hp

theorem enterPause_ramOnly (s : State) : RamOnly s (enterPause s) := .of_mem_eq (by simp) (by simp)

theorem leavePause_ramOnly (h : leavePause s = .next t) : RamOnly s t := by
  simp only [leavePause] at h
  split at h
  · cases h; exact interruptEntry_ramOnly s
  · exact .trans (by exact .of_mem_eq rfl rfl) (runDecoded_ramOnly h)

theorem undisturbed_ramOnly (h : undisturbed s = .next t) : RamOnly s t := by
  simp only [undisturbed] at h
  split at h
  case h_1 =>
    simp only [runStep] at h
    split at h
    · cases h; exact enterPause_ramOnly s
    · split at h
      · cases h; exact interruptEntry_discarded_ramOnly s
      · exact .trans (by exact .of_mem_eq rfl rfl) (runInstr_ramOnly h)
  case h_2 =>
    simp only [haltStep] at h
    split at h <;> cases h
    · exact interruptEntry_ramOnly s
    · exact .of_mem_eq rfl rfl
  case h_3 =>
    simp only [pauseStep] at h
    split at h
    · cases h; exact dmaWrites_ramOnly _ s
    · exact leavePause_ramOnly h

/-! RESET -/

/-- RESET leaves memory as it is (70_reset_and_hazards.md R380). -/
theorem takeReset_ramOnly (s : State) : RamOnly s (takeReset s) := by
  have chip : RamOnly s (resetChip s) := .of_mem_eq rfl rfl
  simp only [takeReset]
  split
  case h_1 =>
    split
    · exact chip.trans (enterPause_ramOnly _)
    · exact chip
  all_goals exact chip

theorem abandonAt_ramOnly (n : Nat) (h : RamOnly s t) : RamOnly s (abandonAt n s t) := by
  rcases abandonAt_cases n s t with ⟨_, e⟩ | ⟨_, hm, _, _, hp⟩
  · rwa [e]
  · exact .of_mem_eq hm hp.1

theorem boundary_ramOnly (h : boundary s = .next t) : RamOnly s t := by
  simp only [boundary] at h
  split at h
  · simp only [resetStep] at h
    split at h
    · cases h; exact takeReset_ramOnly s
    · split at h <;> cases h
      rename_i hu
      exact (abandonAt_ramOnly _ (undisturbed_ramOnly hu)).trans (takeReset_ramOnly _)
  · exact undisturbed_ramOnly h

theorem step_ramOnly (h : step s = .next t) : RamOnly s t := by
  obtain ⟨u, hu, rfl⟩ := endStep_eq_next h
  exact (boundary_ramOnly hu).trans (.of_mem_eq rfl (advance_platform _))

end

/-! The obligations -/

/-- Settles O13. -/
theorem stepKeepsMemoryCanonical : Obligations.StepKeepsMemoryCanonical :=
  fun _ _ hs h => (step_ramOnly h).canonical hs

/-- Settles O15. -/
theorem stepKeepsReadOnlyMemory : Obligations.StepKeepsReadOnlyMemory :=
  fun _ _ h => ⟨(step_ramOnly h).platform, (step_ramOnly h).readOnly⟩

end Sys2Proof
end

section
/-! Addresses and memory (20_memory.md): counting in a page, pointers, the absolute and the branch addresses, one write and one read. -/

namespace Sys2Proof

open Sys2Proof.Machine

/-! Addresses -/

theorem forward_eq_iterate (p : Addr) (n : Nat) : forward p n = Nat.iterate nextInPage n p := by
  induction n generalizing p with
  | zero => exact forward_zero p
  | succ n ih => rw [Function.iterate_succ_apply, ← ih, forward_nextInPage]

/-- Settles O5. -/
theorem inPageArithmeticWraps : Obligations.InPageArithmeticWraps := by
  intro p n
  exact ⟨by rw [inPage_toNat, BitVec.toNat_ofNat], by rw [← forward_one, forward_toNat], forward_eq_iterate p n⟩

/-- A pointer in plain memory: the two bytes it is made of, bit 7 of the high one ignored (20_memory.md R87). -/
theorem indirect_plain {p : Addr} {s : State} (h0 : plainAt s p) (h1 : plainAt s (nextInPage p)) :
    indirect p s = ((s.peek p).setWidth 7 ++ s.peek (nextInPage p), s) := by
  simp only [indirect, memRead_plain h0, memRead_plain h1]

theorem pointer_toNat (hi lo : Byte) : (hi.setWidth 7 ++ lo : Addr).toNat = 256 * (hi.toNat % 128) + lo.toNat := by
  rw [append_toNat, BitVec.toNat_setWidth]; norm_num

/-- Settles O8. -/
theorem indirectPointer : Obligations.IndirectPointer := by
  intro p s
  refine ⟨?_, rfl, fun h0 h1 => ?_⟩
  · rw [indirect, BitVec.setWidth_eq_extractLsb' (by decide)]
  · rw [indirect_plain h0 h1]
    exact ⟨rfl, pointer_toNat _ _⟩

/-- The index that is added: the index register after its step (20_memory.md R85). -/
theorem readReg_absEA (a : AbsArg) (x : Reg) (s : State) :
    readReg x (absEA x a s).2 = (MemForm.abs x a).stepped (regNow x s) := by
  rw [readReg_eq_regNow]
  by_cases step : a.ic = .inc ∨ a.ic = .dec
  case pos => exact (memForm_ea (.abs x a) s).2.2.2 x ⟨step, rfl⟩
  case neg =>
    obtain ⟨hinc, hdec⟩ := not_or.mp step
    rcases stepIndex_cases a.ic x (through a.ind (inPage s.iar a.addr) s).2 with ⟨h, _⟩ | ⟨_, e⟩
    · exact absurd h step
    · rw [absEA_state, e, (through_bus _ _ s).regNow]
      simp only [MemForm.stepped, if_neg hinc, if_neg hdec]

theorem absEA_none {a : AbsArg} (hi : a.ic = .none) (x : Reg) (s : State) :
    (absEA x a s).1 = (through a.ind (inPage s.iar a.addr) s).1 := by
  simp only [absEA, hi]

theorem absEA_indexed {a : AbsArg} (hi : a.ic ≠ .none) (x : Reg) (s : State) :
    (absEA x a s).1 = indexBy (through a.ind (inPage s.iar a.addr) s).1 (readReg x (absEA x a s).2) := by
  rw [absEA_state]
  unfold absEA
  cases h : a.ic
  case none => exact absurd h hi
  all_goals rfl

theorem absEA_env (x : Reg) (a : AbsArg) (s : State) :
    (absEA x a s).2.env = (through a.ind (inPage s.iar a.addr) s).2.env := by
  rw [absEA_state]
  rcases stepIndex_cases a.ic x (through a.ind (inPage s.iar a.addr) s).2 with ⟨_, e⟩ | ⟨_, e⟩ <;> rw [e]
  exact writeReg_env _ _ _

/-- Settles O9: without an index the base address is the address; with one, the stepped register is added to it in its page. -/
theorem absoluteAddress : Obligations.AbsoluteAddress := by
  intro x a s
  obtain ⟨hp, hd, hr, hs⟩ := memForm_ea (.abs x a) s
  refine ⟨?_, fun h => hs x ⟨h, rfl⟩, hr, hp, hd, absEA_env x a s, memForm_reg x a⟩
  by_cases hi : a.ic = .none
  case pos =>
    rw [absEA_none hi, if_pos hi]
    show (through a.ind (inPage s.iar a.addr) s).1.toNat = 8192 * ((through a.ind (inPage s.iar a.addr) s).1.toNat / 8192) +
      ((through a.ind (inPage s.iar a.addr) s).1.toNat % 8192 + 0) % 8192
    omega
  case neg =>
    rw [absEA_indexed hi, indexBy_toNat, readReg_absEA, if_neg hi]
    rfl

/-- Settles O10. -/
theorem branchAddresses : Obligations.BranchAddresses := by
  rintro ⟨ind, addr⟩ s
  refine ⟨?direct, ?indirect, rfl, ?indexed⟩
  case direct => rintro rfl; rfl
  case indirect => rintro rfl; rfl
  case indexed => rw [indexedBranchEA, indexBy_toNat, (branchAbsEA_bus _ s).readReg, readReg_eq_regNow]

/-! Memory -/

/-- Settles O11. -/
theorem memoryWrite : Obligations.MemoryWrite := by
  intro a v s
  refine ⟨fun h => ?ram, fun h => ?kept, fun h => ?device, fun b hb => ?other, memWrite_keeps a v s⟩
  case ram =>
    have plain : plainAt (memWrite a v s) a := .inl (by rw [kindAt_congr (memWrite_platform a v s), h])
    rw [memRead_plain plain, peek_memWrite, if_pos ⟨h, rfl⟩]
    exact ⟨rfl, by simp only [memWrite, h]⟩
  case kept => rcases h with h | h <;> simp only [memWrite, h]
  case device => simp only [memWrite, h]; rfl
  case other => rw [peek_memWrite, if_neg fun c => hb c.2]

/-- Settles O12. -/
theorem memoryRead : Obligations.MemoryRead := by
  intro a s
  have bus := memRead_bus a s
  refine ⟨memRead_plain, fun h => ?device, fun h => ?nothing, bus.psl, bus.regsKept, bus.dataFrame⟩
  case device => simp only [memRead, h]; exact deviceRead_reads _ _ s
  case nothing => simp only [memRead, h]; exact ⟨rfl, rfl⟩

end Sys2Proof
end

section
/-! The instructions that handle data (40_load_store.md to 43_compare.md): what each family writes, over all four operand forms, and the arithmetic of more than one byte. -/

namespace Sys2Proof

open Sys2Proof.Machine

/-! A result written, with CC its sign -/

/-- A byte put into the destination of a form: the loads and the logical instructions. -/
theorem loadFrom_form (f : Form) (s : State) (v : Byte) :
    regNow f.dest (loadFrom f.dest (v, (f.operand s).2)) = v ∧
    onlyCC s.psl (loadFrom f.dest (v, (f.operand s).2)).psl ∧
    resultFrame f s (loadFrom f.dest (v, (f.operand s).2)) := by
  have hp := form_operand_psl f s
  obtain ⟨hv, hf⟩ := resultFrame_of_write (f := f) (s := s) (v := v) (p := setCC (f.operand s).2.psl v)
    (by rw [rsOf_setCC, hp]) (ccOf_setCC _ _)
  exact ⟨hv, by rw [loadFrom_psl, hp]; exact onlyCC_setCC _ _, hf⟩

/-- A byte put into a register, after bus reads or none. -/
theorem loadFrom_bus {s u : State} (h : BusOnly s u) (r : Reg) (v : Byte) :
    regNow r (loadFrom r (v, u)) = v ∧ ccOf (loadFrom r (v, u)).psl = ccMeaning v ∧
    onlyCC s.psl (loadFrom r (v, u)).psl ∧ regsKeptBut (fun q => q = r) s (loadFrom r (v, u)) ∧
    dataFrame s (loadFrom r (v, u)) ∧ (loadFrom r (v, u)).env = u.env := by
  refine ⟨regNow_writeReg_self r v _ u (rsOf_setCC _ _), ccOf_setCC _ _, ?_, ?_, ?_, loadFrom_env _ _⟩
  · rw [loadFrom_psl, h.psl]; exact onlyCC_setCC _ _
  · exact (h.regsKept.but _).trans h.psl (regsKeptBut_writeReg r v _ u)
  · exact h.dataFrame.trans (dataFrame_writeReg r v _ u)

/-- Settles O16. -/
theorem loadsComplete : Obligations.LoadsComplete := by
  refine ⟨fun f s => ⟨_, exec_lodOf f s, loadFrom_form f s _⟩, fun r s => ⟨_, rfl, ?_⟩⟩
  exact loadFrom_bus (.refl s) r s.r0

/-! Stores -/

/-- Settles O17: the store is one memory write at the effective address. -/
theorem storesComplete : Obligations.StoresComplete := by
  intro m s
  obtain ⟨hp, hd, hr, hs⟩ := memForm_ea m s
  have kind (a : Addr) : (m.ea s).2.env.kindAt a = s.env.kindAt a := kindAt_congr hd.1.2.2.2.2.2.2.2.1 a
  obtain ⟨kr, kp, kq⟩ := memWrite_keeps (m.ea s).1 (readReg m.reg (m.ea s).2) (m.ea s).2
  refine ⟨_, exec_strOf m s, fun h => ?ram, fun h => ?notRam, fun b hb => ?other, fun h => ?device, fun h => ?noDevice,
    fun q hq => ?stepped, hr.trans hp (kr.but _), kp.trans hp, hd.1.trans kq⟩ <;> rw [storeAt]
  case ram => rw [peek_memWrite, kind, if_pos ⟨h, rfl⟩, readReg_eq_regNow]
  case notRam => rw [peek_memWrite, kind, if_neg fun c => h c.1]; exact hd.2 _
  case other => rw [peek_memWrite, if_neg fun c => hb c.2]; exact hd.2 _
  case device => simp only [memWrite, kind, h, record_env, readReg_eq_regNow]
  case noDevice =>
    rcases memWrite_cases (m.ea s).1 (readReg m.reg (m.ea s).2) (m.ea s).2 with ⟨_, e⟩ | ⟨hk, _⟩ | ⟨_, e⟩
    · rw [e]
    · exact absurd (kind _ ▸ hk) h
    · rw [e]
  case stepped =>
    rw [← hs q hq, regNow, regNow, kp]
    exact kr _ q

/-! Add and subtract -/

/-- An add over a form: the adder's result and PSL, from the operands and the PSL before. -/
theorem exec_addOf_eq (f : Form) (s : State) :
    exec (addOf f) s = .next (putResult f.dest (add8 s.psl (f.first s) (f.operand s).1) (f.operand s).2) := by
  rw [exec_addOf, addTo, form_operand_psl, readReg_eq_regNow, Form.first]

theorem exec_subOf_eq (f : Form) (s : State) :
    exec (subOf f) s = .next (putResult f.dest (sub8 s.psl (f.first s) (f.operand s).1) (f.operand s).2) := by
  rw [exec_subOf, subFrom, form_operand_psl, readReg_eq_regNow, Form.first]

/-- Settles O18. -/
theorem addsComplete : Obligations.AddsComplete := by
  intro f s
  obtain ⟨hsum, hpsl⟩ := add8_spec s.psl (f.first s) (f.operand s).1
  obtain ⟨hv, hf⟩ := resultFrame_of_write (f := f) (s := s) (v := (add8 s.psl (f.first s) (f.operand s).1).1)
    (p := (add8 s.psl (f.first s) (f.operand s).1).2) (by rw [hpsl, rsOf_withArith]) (by rw [hpsl, ccOf_withArith])
  refine ⟨_, exec_addOf_eq f s, ?_, ?_, ?_, ?_, ?_, hf⟩
  · exact hv ▸ hsum
  · rw [putResult_psl, hpsl, cOf_withArith]
  · rw [putResult_psl, hpsl, idcOf_withArith]
  · rw [putResult_psl, hpsl, ovfOf_withArith, putResult, hv]
  · rw [putResult_psl, hpsl]; exact controlKept_withArith _ _ _ _ _

/-- Settles O19. -/
theorem subtractsComplete : Obligations.SubtractsComplete := by
  intro f s
  obtain ⟨hdiff, hpsl⟩ := sub8_spec s.psl (f.first s) (f.operand s).1
  obtain ⟨hv, hf⟩ := resultFrame_of_write (f := f) (s := s) (v := (sub8 s.psl (f.first s) (f.operand s).1).1)
    (p := (sub8 s.psl (f.first s) (f.operand s).1).2) (by rw [hpsl, rsOf_withArith]) (by rw [hpsl, ccOf_withArith])
  refine ⟨_, exec_subOf_eq f s, ?_, ?_, ?_, ?_, ?_, hf⟩
  · exact hv ▸ hdiff
  · rw [putResult_psl, hpsl, cOf_withArith]
  · rw [putResult_psl, hpsl, idcOf_withArith]
  · rw [putResult_psl, hpsl, ovfOf_withArith, putResult, hv]
  · rw [putResult_psl, hpsl]; exact controlKept_withArith _ _ _ _ _

@[simp] theorem bitNat_false : bitNat false = 0 := rfl
@[simp] theorem bitNat_true : bitNat true = 1 := rfl

theorem byte_toInt (v : Byte) : v.toInt = if v.toNat < 128 then (v.toNat : Int) else v.toNat - 256 := by
  have hlt := v.isLt
  rw [BitVec.toInt_eq_toNat_cond]
  split <;> split <;> omega

theorem byte_msb (v : Byte) : v.msb = decide (128 ≤ v.toNat) := BitVec.msb_eq_decide v

/-- Settles O20: the signs of the operands and of the result as bounds on the bytes, then the arithmetic for each pair of signs. -/
theorem overflowIsSignedOverflow : Obligations.OverflowIsSignedOverflow := by
  intro p a b hw
  obtain ⟨hsum, hadd⟩ := add8_spec p a b
  obtain ⟨hdiff, hsub⟩ := sub8_spec p a b
  have ha := a.isLt
  have hb := b.isLt
  rw [hw, Bool.false_and, bitNat_false] at hsum hdiff
  rw [hadd, hsub, ovfOf_withArith, ovfOf_withArith, byte_toInt, byte_toInt]
  simp only [byte_msb, ne_eq, decide_eq_decide, decide_eq_true_eq]
  constructor <;> split <;> split <;> omega

/-! Arithmetic of two bytes -/

theorem bitNat_decide (c : Prop) [Decidable c] : bitNat (decide c) = if c then 1 else 0 := by
  by_cases h : c <;> simp [h]

/-- An add with WC = 1: C goes in and out, WC stays. -/
theorem add8_withCarry {p : Byte} (hw : wcOf p = true) (a b : Byte) :
    (add8 p a b).1.toNat = (a.toNat + b.toNat + bitNat (cOf p)) % 256 ∧
    cOf (add8 p a b).2 = decide (256 ≤ a.toNat + b.toNat + bitNat (cOf p)) ∧ wcOf (add8 p a b).2 = true := by
  obtain ⟨hsum, hpsl⟩ := add8_spec p a b
  rw [hw, Bool.true_and] at hsum hpsl
  exact ⟨hsum, by rw [hpsl, cOf_withArith], by rw [hpsl, wcOf_withArith, hw]⟩

/-- A subtract with WC = 1: C = 0 is the borrow that goes in and out. -/
theorem sub8_withBorrow {p : Byte} (hw : wcOf p = true) (a b : Byte) :
    ((sub8 p a b).1.toNat : Int) = ((a.toNat : Int) - b.toNat - bitNat (!cOf p)) % 256 ∧
    cOf (sub8 p a b).2 = decide (b.toNat + bitNat (!cOf p) ≤ a.toNat) ∧ wcOf (sub8 p a b).2 = true := by
  obtain ⟨hdiff, hpsl⟩ := sub8_spec p a b
  rw [hw, Bool.true_and] at hdiff hpsl
  exact ⟨hdiff, by rw [hpsl, cOf_withArith], by rw [hpsl, wcOf_withArith, hw]⟩

theorem word_toNat (hi lo : Byte) : (hi ++ lo).toNat = 256 * hi.toNat + lo.toNat := append_toNat hi lo

/-- Settles O21: the carry, or borrow, out of the low bytes is the one into the high bytes. -/
theorem sixteenBitChains : Obligations.SixteenBitChains := by
  intro p ah al bh bl hw
  have := al.isLt
  have := bl.isLt
  refine ⟨fun hc => ?sum, fun hc => ?difference⟩ <;> intro lo hi
  case sum =>
    obtain ⟨loSum, loCarry, loWc⟩ := add8_withCarry hw al bl
    obtain ⟨hiSum, hiCarry, _⟩ := add8_withCarry loWc ah bh
    rw [loCarry, bitNat_decide, hc, bitNat_false] at hiSum hiCarry
    rw [hc, bitNat_false] at loSum
    rw [word_toNat, word_toNat, word_toNat, hiSum, loSum, hiCarry, decide_eq_decide]
    split <;> omega
  case difference =>
    obtain ⟨loDiff, loBorrow, loWc⟩ := sub8_withBorrow hw al bl
    obtain ⟨hiDiff, hiBorrow, _⟩ := sub8_withBorrow loWc ah bh
    rw [loBorrow, ← decide_not, bitNat_decide, hc, Bool.not_true, bitNat_false] at hiDiff hiBorrow
    rw [hc, Bool.not_true, bitNat_false] at loDiff
    rw [word_toNat, word_toNat, word_toNat, hiBorrow, decide_eq_decide]
    push_cast
    rw [hiDiff, loDiff]
    split <;> omega

/-! Logical -/

theorem exec_andOf_eq (f : Form) (s : State) :
    exec (andOf f) s = .next (loadFrom f.dest (f.first s &&& (f.operand s).1, (f.operand s).2)) := by
  rw [exec_andOf, andTo, readReg_eq_regNow]; rfl

theorem exec_iorOf_eq (f : Form) (s : State) :
    exec (iorOf f) s = .next (loadFrom f.dest (f.first s ||| (f.operand s).1, (f.operand s).2)) := by
  rw [exec_iorOf, iorTo, readReg_eq_regNow]; rfl

theorem exec_eorOf_eq (f : Form) (s : State) :
    exec (eorOf f) s = .next (loadFrom f.dest (f.first s ^^^ (f.operand s).1, (f.operand s).2)) := by
  rw [exec_eorOf, eorTo, readReg_eq_regNow]; rfl

/-- Settles O22: each is a load of the combined byte, whose bits are the combined bits. -/
theorem logicalsComplete : Obligations.LogicalsComplete := by
  intro f s
  refine ⟨⟨_, exec_andOf_eq f s, ?and⟩, ⟨_, exec_iorOf_eq f s, ?ior⟩, ⟨_, exec_eorOf_eq f s, ?eor⟩⟩
  case and =>
    obtain ⟨hv, hc, hf⟩ := loadFrom_form f s (f.first s &&& (f.operand s).1)
    exact ⟨hc, hf, fun k _ => by rw [hv, BitVec.getLsbD_and, Bool.and_eq_true]⟩
  case ior =>
    obtain ⟨hv, hc, hf⟩ := loadFrom_form f s (f.first s ||| (f.operand s).1)
    exact ⟨hc, hf, fun k _ => by rw [hv, BitVec.getLsbD_or, Bool.or_eq_true]⟩
  case eor =>
    obtain ⟨hv, hc, hf⟩ := loadFrom_form f s (f.first s ^^^ (f.operand s).1)
    exact ⟨hc, hf, fun k _ => by rw [hv, BitVec.getLsbD_xor, bne_iff_ne]⟩

/-! Compare -/

theorem regIn_putCC (b : Bool) (q : Reg) (cc : BitVec 2) (s : State) : regIn b q (putCC cc s) = regIn b q s := by
  cases q <;> rfl

theorem regNow_putCC (q : Reg) (cc : BitVec 2) (s : State) : regNow q (putCC cc s) = regNow q s := by
  rw [regNow, regNow, putCC_psl, rsOf_withCC, regIn_putCC]

/-- Settles O23. -/
theorem comparesComplete : Obligations.ComparesComplete := by
  intro f s
  obtain ⟨hp, hd, hr, hs⟩ := form_operand f s
  refine ⟨_, exec_comOfForm f s, ?cc, ?psl, fun q hq => ?stepped, ?regs, ?frame, compareWith_env _ _⟩
  case cc => rw [compareWith_psl, ccOf_withCC, compareCC_eq, hp, readReg_eq_regNow, Form.first]
  case psl => rw [compareWith_psl, hp]; exact onlyCC_withCC _ _
  case stepped => rw [compareWith, regNow_putCC, hs q hq]
  case regs => exact hr.trans hp ⟨fun q _ => regIn_putCC _ q _ _, fun q _ => regIn_putCC _ q _ _⟩
  case frame => exact hd.trans ⟨quiet_refl _, fun _ => rfl⟩

end Sys2Proof
end

section
/-! Rotates, the program status instructions and the miscellaneous ones (44_rotate.md, 45_program_status.md, 49_misc.md). -/

namespace Sys2Proof

open Sys2Proof.Machine

/-! A register operation -/

/-- A register written with a PSL that selects the same bank. -/
theorem putResult_self (r : Reg) {p : Byte × Byte} {s : State} (h : rsOf p.2 = rsOf s.psl) :
    regNow r (putResult r p s) = p.1 ∧ regsKeptBut (fun q => q = r) s (putResult r p s) ∧
    dataFrame s (putResult r p s) ∧ (putResult r p s).env = s.env :=
  ⟨regNow_writeReg_self r _ _ s h, regsKeptBut_writeReg r _ _ s, dataFrame_writeReg r _ _ s, by simp⟩

/-! Rotates -/

theorem exec_rrl (r : Reg) (s : State) : exec (.rrl r) s = .next (putResult r (rotateLeft8 s.psl (regNow r s)) s) := by
  rw [← readReg_eq_regNow]; rfl

theorem exec_rrr (r : Reg) (s : State) : exec (.rrr r) s = .next (putResult r (rotateRight8 s.psl (regNow r s)) s) := by
  rw [← readReg_eq_regNow]; rfl

theorem ccOf_rotatePsl (p v res : Byte) (c : Bool) : ccOf (rotatePsl p v res c) = ccMeaning res := by
  rw [rotatePsl_spec]; split <;> simp

theorem rsOf_rotatePsl (p v res : Byte) (c : Bool) : rsOf (rotatePsl p v res c) = rsOf p := by
  rw [rotatePsl_spec]; split <;> simp

theorem wcOf_rotatePsl (p v res : Byte) (c : Bool) : wcOf (rotatePsl p v res c) = wcOf p := by
  rw [rotatePsl_spec]; split <;> simp

theorem cOf_rotatePsl (p v res : Byte) (c : Bool) : cOf (rotatePsl p v res c) = if wcOf p then c else cOf p := by
  rw [rotatePsl_spec]; split <;> simp

/-- With WC = 1 (44_rotate.md R210): OVF compares bit 7 before and after. -/
theorem rotatePsl_wc {p : Byte} (h : wcOf p = true) (v res : Byte) (c : Bool) :
    cOf (rotatePsl p v res c) = c ∧ idcOf (rotatePsl p v res c) = res.getLsbD 5 ∧
    ovfOf (rotatePsl p v res c) = decide (res.getLsbD 7 ≠ v.getLsbD 7) ∧ controlKept p (rotatePsl p v res c) := by
  rw [rotatePsl_spec, if_pos h]
  refine ⟨cOf_withArith _ _ _ _ _, idcOf_withArith _ _ _ _ _, ?_, controlKept_withArith _ _ _ _ _⟩
  rw [ovfOf_withArith, BitVec.msb_eq_getLsbD_last, BitVec.msb_eq_getLsbD_last]
  show (res.getLsbD 7 != v.getLsbD 7) = decide (res.getLsbD 7 ≠ v.getLsbD 7)
  generalize res.getLsbD 7 = x
  generalize v.getLsbD 7 = y
  revert x y; decide

theorem rotatePsl_noWc {p : Byte} (h : wcOf p = false) (v res : Byte) (c : Bool) : onlyCC p (rotatePsl p v res c) := by
  rw [rotatePsl_spec, h]
  exact onlyCC_withCC _ _

/-- What both rotates do besides the bits of the result and, with WC = 1, the carry bits. -/
theorem putResult_rotate (r : Reg) {s : State} {p : Byte × Byte} {v : Byte} {c : Bool}
    (hp : p.2 = rotatePsl s.psl v p.1 c) :
    regNow r (putResult r p s) = p.1 ∧ (wcOf s.psl = false → onlyCC s.psl (putResult r p s).psl) ∧
    ccOf (putResult r p s).psl = ccMeaning p.1 ∧ regsKeptBut (fun q => q = r) s (putResult r p s) ∧
    dataFrame s (putResult r p s) ∧ (putResult r p s).env = s.env := by
  obtain ⟨hv, hr, hd, he⟩ := putResult_self r (p := p) (s := s) (by rw [hp, rsOf_rotatePsl])
  rw [putResult_psl, hp]
  exact ⟨hv, fun h => rotatePsl_noWc h _ _ _, ccOf_rotatePsl _ _ _ _, hr, hd, he⟩

theorem rotateLeft8_psl (p v : Byte) :
    (rotateLeft8 p v).2 = rotatePsl p v (rotateLeft8 p v).1 (v.getLsbD 7) := rfl

theorem rotateRight8_psl (p v : Byte) :
    (rotateRight8 p v).2 = rotatePsl p v (rotateRight8 p v).1 (v.getLsbD 0) := rfl

/-- Settles O24: the bits moved, then for WC = 1 the carry bits in terms of them. -/
theorem rotatesComplete : Obligations.RotatesComplete := by
  intro r s v
  refine ⟨⟨_, exec_rrl r s, ?left⟩, ⟨_, exec_rrr r s, ?right⟩⟩
  case left =>
    obtain ⟨hv, hno, hcc, hr, hd, he⟩ := putResult_rotate r (s := s) (rotateLeft8_psl s.psl v)
    obtain ⟨hbits, hin⟩ := rotateLeft8_bits s.psl v
    refine ⟨by rw [hv]; exact hbits, by rw [hv]; exact hin, fun hw => ?_, hno, by rw [hv]; exact hcc, hr, hd, he⟩
    obtain ⟨hc, hidc, hovf, hk⟩ := rotatePsl_wc hw v (rotateLeft8 s.psl v).1 (v.getLsbD 7)
    rw [putResult_psl, rotateLeft8_psl]
    exact ⟨hc, by rw [hidc, hbits 4 (by decide)], by rw [hovf, hbits 6 (by decide)], hk⟩
  case right =>
    obtain ⟨hv, hno, hcc, hr, hd, he⟩ := putResult_rotate r (s := s) (rotateRight8_psl s.psl v)
    obtain ⟨hbits, hin⟩ := rotateRight8_bits s.psl v
    refine ⟨by rw [hv]; exact hbits, by rw [hv]; exact hin, fun hw => ?_, hno, by rw [hv]; exact hcc, hr, hd, he⟩
    obtain ⟨hc, hidc, hovf, hk⟩ := rotatePsl_wc hw v (rotateRight8 s.psl v).1 (v.getLsbD 0)
    rw [putResult_psl, rotateRight8_psl]
    exact ⟨hc, by rw [hidc, hbits 5 (by decide)], by rw [hovf, hin, if_pos hw], hk⟩

/-! Rotates that come round -/

/-- The ring of bits an RRL turns, the register and C: through C with WC = 1, past it with WC = 0. -/
def ringLeft (wc : Bool) (x : Byte × Bool) : Byte × Bool :=
  ((x.1 <<< 1) ||| (BitVec.ofBool (if wc then x.2 else x.1.getLsbD 7)).setWidth 8, if wc then x.1.getLsbD 7 else x.2)

/-- The same of an RRR. -/
def ringRight (wc : Bool) (x : Byte × Bool) : Byte × Bool :=
  ((x.1 >>> 1) ||| ((BitVec.ofBool (if wc then x.2 else x.1.getLsbD 0)).setWidth 8 <<< 7), if wc then x.1.getLsbD 0 else x.2)

theorem rotateLeft8_ring (p v : Byte) : ((rotateLeft8 p v).1, cOf (rotateLeft8 p v).2) = ringLeft (wcOf p) (v, cOf p) := by
  rw [rotateLeft8_psl, cOf_rotatePsl]; rfl

theorem rotateRight8_ring (p v : Byte) : ((rotateRight8 p v).1, cOf (rotateRight8 p v).2) = ringRight (wcOf p) (v, cOf p) := by
  rw [rotateRight8_psl, cOf_rotatePsl]; rfl

section
variable {i : Instr} {r : Reg} {rot : Byte → Byte → Byte × Byte} {ring : Bool → Byte × Bool → Byte × Bool}

/-- A rotate repeated turns its ring as often. -/
theorem repeatInstr_rotate (hexec : ∀ s, exec i s = .next (putResult r (rot s.psl (regNow r s)) s))
    (hkeep : ∀ p v, wcOf (rot p v).2 = wcOf p ∧ rsOf (rot p v).2 = rsOf p)
    (hring : ∀ p v, ((rot p v).1, cOf (rot p v).2) = ring (wcOf p) (v, cOf p)) (n : Nat) (s : State) :
    ∃ t, repeatInstr n i s = .next t ∧ (regNow r t, cOf t.psl) = (ring (wcOf s.psl))^[n] (regNow r s, cOf s.psl) := by
  induction n generalizing s with
  | zero => exact ⟨s, rfl, rfl⟩
  | succ n ih =>
    obtain ⟨t, ht, hv⟩ := ih (putResult r (rot s.psl (regNow r s)) s)
    obtain ⟨hwc, hrs⟩ := hkeep s.psl (regNow r s)
    refine ⟨t, by simp only [repeatInstr, hexec]; exact ht, ?_⟩
    rw [hv, putResult_psl, hwc, (putResult_self r hrs).1, hring, Function.iterate_succ_apply]

theorem repeatInstr_comesRound (hexec : ∀ s, exec i s = .next (putResult r (rot s.psl (regNow r s)) s))
    (hkeep : ∀ p v, wcOf (rot p v).2 = wcOf p ∧ rsOf (rot p v).2 = rsOf p)
    (hring : ∀ p v, ((rot p v).1, cOf (rot p v).2) = ring (wcOf p) (v, cOf p))
    (hround : ∀ v c, (ring false)^[8] (v, c) = (v, c) ∧ (ring true)^[9] (v, c) = (v, c)) (s : State) :
    (wcOf s.psl = false → ∃ t, repeatInstr 8 i s = .next t ∧ regNow r t = regNow r s) ∧
    (wcOf s.psl = true → ∃ t, repeatInstr 9 i s = .next t ∧ regNow r t = regNow r s ∧ cOf t.psl = cOf s.psl) := by
  obtain ⟨h8, h9⟩ := hround (regNow r s) (cOf s.psl)
  refine ⟨fun hw => ?eight, fun hw => ?nine⟩
  case eight =>
    obtain ⟨t, ht, hv⟩ := repeatInstr_rotate hexec hkeep hring 8 s
    rw [hw, h8, Prod.mk.injEq] at hv
    exact ⟨t, ht, hv.1⟩
  case nine =>
    obtain ⟨t, ht, hv⟩ := repeatInstr_rotate hexec hkeep hring 9 s
    rw [hw, h9, Prod.mk.injEq] at hv
    exact ⟨t, ht, hv⟩

end

/-- A ring of eight bits, or of nine with C, comes round. -/
theorem ringLeft_comesRound : ∀ v c, (ringLeft false)^[8] (v, c) = (v, c) ∧ (ringLeft true)^[9] (v, c) = (v, c) := by
  decide

theorem ringRight_comesRound : ∀ v c, (ringRight false)^[8] (v, c) = (v, c) ∧ (ringRight true)^[9] (v, c) = (v, c) := by
  decide

/-- Settles O25. -/
theorem rotatesComeRound : Obligations.RotatesComeRound := by
  rintro i r s (rfl | rfl)
  · exact repeatInstr_comesRound (exec_rrl r) (fun _ _ => ⟨wcOf_rotatePsl _ _ _ _, rsOf_rotatePsl _ _ _ _⟩)
      rotateLeft8_ring ringLeft_comesRound s
  · exact repeatInstr_comesRound (exec_rrr r) (fun _ _ => ⟨wcOf_rotatePsl _ _ _ _, rsOf_rotatePsl _ _ _ _⟩)
      rotateRight8_ring ringRight_comesRound s

/-! The program status bytes -/

/-- The PSU as read, as a number and by its bits: Sense, F, II, 0, 0, SP (45_program_status.md R220). -/
theorem psuRead_toNat (s : State) :
    (psuRead s).toNat = 128 * bitNat s.env.now.sense + 64 * bitNat s.flag + 32 * bitNat s.ii + s.sp.toNat := by
  rw [psuRead]
  generalize s.env.now.sense = a
  generalize s.flag = b
  generalize s.ii = c
  generalize s.sp = d
  revert a b c d; decide

theorem psuRead_bits (s : State) : (psuRead s).getLsbD 6 = s.flag ∧ (psuRead s).getLsbD 5 = s.ii ∧
    (psuRead s).getLsbD 4 = false ∧ (psuRead s).getLsbD 3 = false ∧ (psuRead s).extractLsb' 0 3 = s.sp := by
  rw [psuRead]
  generalize s.env.now.sense = a
  generalize s.flag = b
  generalize s.ii = c
  generalize s.sp = d
  revert a b c d; decide

theorem low_three_bits (x : Byte) : x.extractLsb' 0 3 = BitVec.ofNat 3 x.toNat := by
  revert x; decide

theorem low_three_bits_not (x : Byte) : (~~~x).extractLsb' 0 3 = ~~~(BitVec.ofNat 3 x.toNat) := by
  revert x; decide

/-- Settles O26: the PSU read, combined with the mask, and its bits 6, 5 and 2 to 0 written back. -/
theorem upperStatusWritesComplete : Obligations.UpperStatusWritesComplete := by
  intro v s
  obtain ⟨hf, hi, _, _, hsp⟩ := psuRead_bits s
  refine ⟨?lpsu, ?ppsu, ?cpsu⟩
  case lpsu => rw [← low_three_bits]; rfl
  case ppsu =>
    show Host.Outcome.next (psuWrite (psuRead s ||| v) s) = _
    rw [psuWrite, BitVec.getLsbD_or, BitVec.getLsbD_or, BitVec.extractLsb'_or, hf, hi, hsp, low_three_bits]
  case cpsu =>
    show Host.Outcome.next (psuWrite (psuRead s &&& ~~~v) s) = _
    rw [psuWrite, BitVec.getLsbD_and, BitVec.getLsbD_and, BitVec.extractLsb'_and, hf, hi, hsp, low_three_bits_not]
    simp

/-- Settles O27: the bits of an or, and of an and with a complement. -/
theorem lowerStatusWritesComplete : Obligations.LowerStatusWritesComplete := by
  intro v s
  refine ⟨_, _, _, rfl, rfl, rfl, rfl, rfl, rfl, fun k hk => ⟨?set, ?clear⟩⟩
  case set => rw [BitVec.getLsbD_or, Bool.or_eq_true]
  case clear => simp [hk]

/-- Settles O28. -/
theorem statusStoresComplete : Obligations.StatusStoresComplete := by
  intro s
  have stored := loadFrom_bus (.refl s) .r0
  refine ⟨⟨_, rfl, psuRead_toNat s, ?_⟩, ⟨_, rfl, rfl, ?_⟩⟩
  · exact (stored (psuRead s)).2
  · exact (stored s.psl).2

/-- CC alone set, everything else as it was. -/
theorem putCC_frame (cc : BitVec 2) (s : State) : onlyCC s.psl (putCC cc s).psl ∧ { putCC cc s with psl := s.psl } = s :=
  ⟨onlyCC_withCC _ _, rfl⟩

/-- Settles O29: bits 4 and 3 of the PSU read 0, so a mask with either finds a 0. -/
theorem bitTestsComplete : Obligations.BitTestsComplete := by
  intro r v s
  have all {x : Byte} (h : ∀ k, k < 8 → v.getLsbD k = true → x.getLsbD k = true) : ccOf (putCC (testCC x v) s).psl = 0b00 := by
    rw [putCC_psl, ccOf_withCC, testCC_all h]
  have some {x : Byte} {k : Nat} (hv : v.getLsbD k = true) (hx : x.getLsbD k = false) :
      ccOf (putCC (testCC x v) s).psl = 0b10 := by
    rw [putCC_psl, ccOf_withCC, testCC_some hv hx]
  obtain ⟨_, _, h4, h3, _⟩ := psuRead_bits s
  rw [← readReg_eq_regNow]
  refine ⟨_, _, _, rfl, rfl, rfl, all, fun k _ => some, ?unused, all, fun k _ => some, all, fun k _ => some,
    putCC_frame _ s, putCC_frame _ s, putCC_frame _ s⟩
  case unused =>
    rintro (h | h)
    · exact some h h4
    · exact some h h3

/-! NOP, HALT and decimal adjust -/

/-- Settles O40. -/
theorem nopAndHaltComplete : Obligations.NopAndHaltComplete :=
  fun _ => ⟨rfl, _, rfl, rfl, rfl, rfl, rfl⟩

theorem exec_dar (r : Reg) (s : State) :
    exec (.dar r) s = .next (drawCC (writeReg r (decimalAdjust s.psl (regNow r s)) s)) := by
  rw [← readReg_eq_regNow]; rfl

theorem regIn_drawCC (b : Bool) (q : Reg) (s : State) : regIn b q (drawCC s) = regIn b q s := by cases q <;> rfl

theorem regNow_drawCC (q : Reg) (s : State) : regNow q (drawCC s) = regNow q s := by
  rw [regNow, regNow, drawCC_psl, rsOf_withCC, regIn_drawCC]

/-- Settles O41. -/
theorem decimalAdjustCompletes : Obligations.DecimalAdjustCompletes := by
  intro r s v
  have hv : regNow r (drawCC (writeReg r (decimalAdjust s.psl (regNow r s)) s)) = decimalAdjust s.psl (regNow r s) := by
    rw [regNow_drawCC, regNow_writeReg]
  obtain ⟨hhi, hlo⟩ := decimalAdjust_digits s.psl (regNow r s)
  refine ⟨_, exec_dar r s, by rw [hv]; exact hhi, by rw [hv]; exact hlo, ?psl, ?regs, ?frame, by simp, by simp⟩
  case psl => rw [drawCC_psl, writeReg_psl]; exact onlyCC_withCC _ _
  case regs =>
    obtain ⟨hsel, hother⟩ := regsKeptBut_writeReg' r (decimalAdjust s.psl (regNow r s)) s
    exact ⟨fun q hq => (regIn_drawCC _ q _).trans (hsel q hq), fun q hq => (regIn_drawCC _ q _).trans (hother q hq)⟩
  case frame =>
    exact (dataFrame_writeReg' r _ s).trans ⟨⟨rfl, ⟨rfl, rfl, rfl⟩, rfl, rfl, rfl, rfl, rfl, rfl, rfl, rfl⟩, fun _ => rfl⟩

/-! The manual's decimal procedures -/

theorem exec_addi (r : Reg) (v : Byte) (s : State) :
    exec (.addi r v) s = .next (putResult r (add8 s.psl (regNow r s) v) s) := exec_addOf_eq (.i r v) s

theorem exec_subi (r : Reg) (v : Byte) (s : State) :
    exec (.subi r v) s = .next (putResult r (sub8 s.psl (regNow r s) v) s) := exec_subOf_eq (.i r v) s

theorem exec_addi_self (r : Reg) (v : Byte) (s : State) : ∃ t, exec (.addi r v) s = .next t ∧
    regNow r t = (add8 s.psl (regNow r s) v).1 ∧ t.psl = (add8 s.psl (regNow r s) v).2 := by
  have h := (add8_spec s.psl (regNow r s) v).2
  exact ⟨_, exec_addi r v s, (putResult_self r (by rw [h, rsOf_withArith])).1, rfl⟩

theorem exec_subi_self (r : Reg) (v : Byte) (s : State) : ∃ t, exec (.subi r v) s = .next t ∧
    regNow r t = (sub8 s.psl (regNow r s) v).1 ∧ t.psl = (sub8 s.psl (regNow r s) v).2 := by
  have h := (sub8_spec s.psl (regNow r s) v).2
  exact ⟨_, exec_subi r v s, (putResult_self r (by rw [h, rsOf_withArith])).1, rfl⟩

theorem exec_dar_self (r : Reg) (s : State) : ∃ t, exec (.dar r) s = .next t ∧
    regNow r t = decimalAdjust s.psl (regNow r s) ∧ cOf t.psl = cOf s.psl :=
  ⟨_, exec_dar r s, by rw [regNow_drawCC, regNow_writeReg], by rw [drawCC_psl, cOf_withCC, writeReg_psl]⟩

theorem bcd_toNat {hi lo : Nat} (hhi : hi < 10) (hlo : lo < 10) : (bcd hi lo).toNat = 16 * hi + lo := by
  rw [bcd, BitVec.toNat_ofNat]; omega

theorem eq_bcd {b : Byte} {hi lo : Nat} (hhi : hi < 10) (hlo : lo < 10) (h1 : b.toNat / 16 = hi) (h0 : b.toNat % 16 = lo) :
    b = bcd hi lo := by
  apply BitVec.eq_of_toNat_eq
  rw [bcd_toNat hhi hlo]; omega

/-- An add with WC = 0. -/
theorem add8_noCarry {p : Byte} (hw : wcOf p = false) (a b : Byte) :
    (add8 p a b).1.toNat = (a.toNat + b.toNat) % 256 ∧ cOf (add8 p a b).2 = decide (256 ≤ a.toNat + b.toNat) ∧
    idcOf (add8 p a b).2 = decide (16 ≤ a.toNat % 16 + b.toNat % 16) ∧ wcOf (add8 p a b).2 = false := by
  obtain ⟨hsum, hpsl⟩ := add8_spec p a b
  rw [hw, Bool.false_and, bitNat_false, Nat.add_zero, Nat.add_zero] at hpsl
  rw [hw, Bool.false_and, bitNat_false, Nat.add_zero] at hsum
  exact ⟨hsum, by rw [hpsl, cOf_withArith], by rw [hpsl, idcOf_withArith], by rw [hpsl, wcOf_withArith, hw]⟩

/-- A subtract with WC = 0. -/
theorem sub8_noBorrow {p : Byte} (hw : wcOf p = false) (a b : Byte) :
    ((sub8 p a b).1.toNat : Int) = ((a.toNat : Int) - b.toNat) % 256 ∧ cOf (sub8 p a b).2 = decide (b.toNat ≤ a.toNat) ∧
    idcOf (sub8 p a b).2 = decide (b.toNat % 16 ≤ a.toNat % 16) := by
  obtain ⟨hdiff, hpsl⟩ := sub8_spec p a b
  rw [hw, Bool.false_and, bitNat_false, Nat.add_zero, Nat.add_zero] at hpsl
  rw [hw, Bool.false_and, bitNat_false, Nat.cast_zero, Int.sub_zero] at hdiff
  exact ⟨hdiff, by rw [hpsl, cOf_withArith], by rw [hpsl, idcOf_withArith]⟩

/-- Two decimal digits, each one too large at most by a carry, with 6 added to each: a digit then carries out of its four bits exactly when it is 10 or more, and one that did not carry is 6 too large and has 10 added modulo 16. -/
theorem decimalAdjust_eq_bcd {p v : Byte} {hi lo : Nat} (hhi : hi < 19) (hlo : lo < 20)
    (hv : v.toNat = (16 * hi + lo + 102) % 256) (hc : cOf p = decide (100 ≤ 10 * hi + lo)) (hd : idcOf p = decide (10 ≤ lo)) :
    decimalAdjust p v = bcd ((10 * hi + lo) % 100 / 10) ((10 * hi + lo) % 10) := by
  obtain ⟨h1, h0⟩ := decimalAdjust_digits p v
  simp only [hc, hd, decide_eq_true_eq] at h1 h0
  refine eq_bcd (by omega) (by omega) ?_ ?_
  · have tens : (10 * hi + lo) % 100 / 10 = (if 10 ≤ lo then hi + 1 else hi) - if 100 ≤ 10 * hi + lo then 10 else 0 := by
      split <;> split <;> omega
    rw [h1, tens]
    split <;> split <;> omega
  · rw [h0]
    split <;> omega

/-- Settles O42: the sum of the tens and of the ones, and, for the difference, the tens with 9 and the ones with 10 added, the ten's complement. -/
theorem decimalArithmetic : Obligations.DecimalArithmetic := by
  intro r s x1 x0 y1 y0 hx1 hx0 hy1 hy0 hw hx
  refine ⟨?sum, ?difference⟩
  case sum =>
    obtain ⟨t, ht, vt, pt⟩ := exec_addi_self r 0x66 s
    obtain ⟨u, hu, vu, pu⟩ := exec_addi_self r (bcd y1 y0) t
    obtain ⟨w, hw', vw, cw⟩ := exec_dar_self r u
    obtain ⟨hsix, _, _, hwt⟩ := add8_noCarry hw (bcd x1 x0) 0x66
    rw [hx] at vt pt
    rw [← vt, bcd_toNat hx1 hx0] at hsix
    rw [← pt] at hwt
    have six : (regNow r t).toNat = 16 * x1 + x0 + 102 := hsix.trans (Nat.mod_eq_of_lt (by simp; omega))
    obtain ⟨hsum, hc, hd, _⟩ := add8_noCarry hwt (regNow r t) (bcd y1 y0)
    rw [six, bcd_toNat hy1 hy0] at hsum hc hd
    refine ⟨w, by simp only [execAll, ht, hu, hw'], ?_⟩
    have total : 10 * x1 + x0 + (10 * y1 + y0) = 10 * (x1 + y1) + (x0 + y0) := by omega
    have carry : cOf u.psl = decide (100 ≤ 10 * (x1 + y1) + (x0 + y0)) := by
      rw [pu, hc, decide_eq_decide]; omega
    rw [vw, cw, vu, carry, total]
    refine ⟨decimalAdjust_eq_bcd (by omega) (by omega) ?_ carry ?_, rfl⟩
    · rw [hsum]; congr 1; omega
    · rw [pu, hd, decide_eq_decide]; omega
  case difference =>
    obtain ⟨u, hu, vu, pu⟩ := exec_subi_self r (bcd y1 y0) s
    obtain ⟨w, hw', vw, cw⟩ := exec_dar_self r u
    obtain ⟨hdiff, hc, hd⟩ := sub8_noBorrow hw (bcd x1 x0) (bcd y1 y0)
    rw [bcd_toNat hx1 hx0, bcd_toNat hy1 hy0] at hdiff hc hd
    rw [hx] at vu pu
    refine ⟨w, by simp only [execAll, hu, hw'], ?_⟩
    have total : 100 + (10 * x1 + x0) - (10 * y1 + y0) = 10 * (9 + x1 - y1) + (10 + x0 - y0) := by omega
    have carry : cOf u.psl = decide (100 ≤ 10 * (9 + x1 - y1) + (10 + x0 - y0)) := by
      rw [pu, hc, decide_eq_decide]; omega
    rw [vw, cw, vu, carry, total]
    refine ⟨decimalAdjust_eq_bcd (by omega) (by omega) ?_ carry ?_, ?_⟩
    · omega
    · rw [pu, hd, decide_eq_decide]; omega
    · rw [decide_eq_decide]; omega

end Sys2Proof
end

section
/-! Branches, calls, the return address stack, input and output (46_branch.md, 47_subroutine.md, 48_io.md, 20_memory.md R80). -/

namespace Sys2Proof

open Sys2Proof.Machine

/-! Branches and calls, taken and not -/

theorem branchIf_taken {b : Bool} (h : b = true) (f : BranchForm) (s : State) :
    (branchIf b f.ea s).iar = (f.ea s).1 ∧ regsKept s (branchIf b f.ea s) ∧ branchFrame s (branchIf b f.ea s) ∧
      (branchIf b f.ea s).env = (f.ea s).2.env := by
  rw [branchIf, if_pos h]
  exact ⟨rfl, goTo_frame (branchForm_bus f s)⟩

theorem branchIf_untaken {b : Bool} (h : b = false) (f : BranchForm) (s : State) :
    branchIf b f.ea s = if s.env.platform.untakenPointer then (f.ea s).2 else s := by
  rw [branchIf, h, if_neg Bool.false_ne_true, notTaken]

theorem callIf_taken {b : Bool} (h : b = true) (f : BranchForm) (s : State) :
    (callIf b f.ea s).iar = (f.ea s).1 ∧ pushed s.iar s (callIf b f.ea s) ∧ regsKept s (callIf b f.ea s) ∧
      callFrame s (callIf b f.ea s) ∧ (callIf b f.ea s).env = (f.ea s).2.env := by
  rw [callIf, if_pos h]
  exact ⟨rfl, push_frame (branchForm_bus f s)⟩

theorem callIf_untaken {b : Bool} (h : b = false) (f : BranchForm) (s : State) :
    callIf b f.ea s = if s.env.platform.untakenPointer then (f.ea s).2 else s := by
  rw [callIf, h, if_neg Bool.false_ne_true, notTaken]

theorem condTrue_eq_false {p : Byte} {v : CondVal} (h : ¬ (v = 3 ∨ ccOf p = v)) : condTrue p v = false :=
  Bool.eq_false_iff.mpr (mt (condTrue_iff p v).mp h)

theorem condFalse_eq_false {p : Byte} {v : CondVal} (h : ccOf p = v) : condFalse p v = false :=
  Bool.eq_false_iff.mpr fun c => (condFalse_iff p v).mp c h

/-- Settles O30. -/
theorem conditionalBranchesComplete : Obligations.ConditionalBranchesComplete := by
  intro v f s
  refine ⟨⟨_, exec_bctOf v f s, fun h => ?_, fun h => ?_⟩, fun _ => ⟨_, exec_bcfOf v f s, fun h => ?_, fun h => ?_⟩⟩
  · exact branchIf_taken ((condTrue_iff _ _).mpr h) f s
  · exact branchIf_untaken (condTrue_eq_false h) f s
  · exact branchIf_taken ((condFalse_iff _ _).mpr h) f s
  · exact branchIf_untaken (condFalse_eq_false h) f s

/-- Settles O32. -/
theorem conditionalCallsComplete : Obligations.ConditionalCallsComplete := by
  intro v f s
  refine ⟨⟨_, exec_bstOf v f s, fun h => ?_, fun h => ?_⟩, fun _ => ⟨_, exec_bsfOf v f s, fun h => ?_, fun h => ?_⟩⟩
  · exact callIf_taken ((condTrue_iff _ _).mpr h) f s
  · exact callIf_untaken (condTrue_eq_false h) f s
  · exact callIf_taken ((condFalse_iff _ _).mpr h) f s
  · exact callIf_untaken (condFalse_eq_false h) f s

/-- Settles O33. -/
theorem registerTestsComplete : Obligations.RegisterTestsComplete := by
  intro r f s
  rw [← readReg_eq_regNow]
  refine ⟨⟨_, exec_brnOf r f s, fun h => ?_, fun h => ?_⟩, ⟨_, exec_bsnOf r f s, fun h => ?_, fun h => ?_⟩⟩
  · exact branchIf_taken (bne_iff_ne.mpr h) f s
  · exact branchIf_untaken (bne_eq_false_iff_eq.mpr h) f s
  · exact callIf_taken (bne_iff_ne.mpr h) f s
  · exact callIf_untaken (bne_eq_false_iff_eq.mpr h) f s

/-- Settles O34. -/
theorem unconditionalTransfersComplete : Obligations.UnconditionalTransfersComplete := by
  intro a b s
  have zero := zeroRelEA_bus a s
  have indexed := indexedBranchEA_bus b s
  exact ⟨_, _, _, _, rfl, rfl, rfl, rfl, ⟨rfl, goTo_frame zero⟩, ⟨rfl, goTo_frame indexed⟩, ⟨rfl, push_frame zero⟩,
    ⟨rfl, push_frame indexed⟩⟩

/-! Counting branches -/

/-- A branch address depends on IAR, memory and the environment alone. -/
theorem branchForm_ea_congr {s t : State} (f : BranchForm) (hi : s.iar = t.iar) (hm : s.mem = t.mem) (he : s.env = t.env) :
    (f.ea s).1 = (f.ea t).1 ∧ (f.ea s).2.env = (f.ea t).2.env := by
  cases f
  case rel a =>
    simp only [BranchForm.ea, relEA, hi]
    exact through_congr _ _ hm he
  case abs a => exact through_congr _ _ hm he

theorem branchIf_regsKept (b : Bool) (f : BranchForm) (s : State) : regsKept s (branchIf b f.ea s) := by
  cases b
  case true => exact (branchIf_taken rfl f s).2.1
  case false => exact (notTaken_bus (branchForm_bus f s)).regsKept

theorem regNow_of_kept {s t : State} (h : regsKept s t) (hp : t.psl = s.psl) (q : Reg) : regNow q t = regNow q s := by
  rw [regNow, regNow, hp]
  exact h _ q

/-- A register counted and a branch after it, whose address the count does not change. -/
theorem countAndBranch (b : Bool) (r : Reg) (d : Byte) (f : BranchForm) (s : State) :
    regNow r (branchIf b f.ea (countReg r d s)) = regNow r s + d ∧
    regsKeptBut (fun q => q = r) s (branchIf b f.ea (countReg r d s)) ∧
    branchFrame s (branchIf b f.ea (countReg r d s)) ∧
    (b = true → (branchIf b f.ea (countReg r d s)).iar = (f.ea s).1 ∧
      (branchIf b f.ea (countReg r d s)).env = (f.ea s).2.env) ∧
    (b = false → (branchIf b f.ea (countReg r d s)).iar = s.iar ∧
      (branchIf b f.ea (countReg r d s)).env = (if s.env.platform.untakenPointer then (f.ea s).2 else s).env) := by
  obtain ⟨hea, henv⟩ := branchForm_ea_congr f (countReg_iar r d s) (countReg_mem r d s) (countReg_env r d s)
  have counted := countReg_branchStep r d s
  have branched := branchIf_branchStep b f (countReg r d s)
  have kept := branchIf_regsKept b f (countReg r d s)
  refine ⟨?value, ?regs, (counted.trans branched).frame, fun h => ?taken, fun h => ?untaken⟩
  case value => rw [regNow_of_kept kept branched.frame.1, countReg, regNow_writeReg, readReg_eq_regNow]
  case regs => exact (regsKeptBut_writeReg' r _ s).trans counted.frame.1 (kept.but _)
  case taken =>
    obtain ⟨hi, _, _, he⟩ := branchIf_taken h f (countReg r d s)
    exact ⟨hi.trans hea, he.trans henv⟩
  case untaken =>
    rw [branchIf_untaken h, countReg_env]
    split
    · exact ⟨(branchForm_bus f _).iar.trans (countReg_iar r d s), henv⟩
    · exact ⟨countReg_iar r d s, countReg_env r d s⟩

/-- A byte counted up is 0 exactly when it was 255, one counted down exactly when it was 1. -/
theorem counted_eq_zero (v : Byte) : (v + 1 = 0 ↔ v = 255) ∧ (v + 0xFF = 0 ↔ v = 1) := by
  revert v; decide

/-- Settles O31. -/
theorem countingBranchesComplete : Obligations.CountingBranchesComplete := by
  intro r f s
  obtain ⟨up, down⟩ := counted_eq_zero (regNow r s)
  refine ⟨⟨_, exec_birOf r f s, ?_⟩, ⟨_, exec_bdrOf r f s, ?_⟩⟩ <;> rw [readReg_eq_regNow]
  · obtain ⟨hv, hr, hb, ht, hu⟩ := countAndBranch (regNow r s + 1 != 0) r 1 f s
    exact ⟨by rw [hv]; exact BitVec.toNat_add _ _, hr, hb, fun h => ht (bne_iff_ne.mpr (mt up.mp h)),
      fun h => hu (bne_eq_false_iff_eq.mpr (up.mpr h))⟩
  · obtain ⟨hv, hr, hb, ht, hu⟩ := countAndBranch (regNow r s + 0xFF != 0) r 0xFF f s
    exact ⟨by rw [hv]; exact BitVec.toNat_add _ _, hr, hb, fun h => ht (bne_iff_ne.mpr (mt down.mp h)),
      fun h => hu (bne_eq_false_iff_eq.mpr (down.mpr h))⟩

/-! The return address stack -/

section
open BitVec (ofNat)

/-- Places counted from SP, modulo 8. -/
theorem sp_add_ofNat (p : BitVec 3) (m n : Nat) : p + ofNat 3 m + ofNat 3 n = p + ofNat 3 (m + n) := by
  rw [BitVec.add_assoc, ← BitVec.ofNat_add]

theorem sp_sub_ofNat (p : BitVec 3) {m n : Nat} (h : n ≤ m) : p + ofNat 3 m - ofNat 3 n = p + ofNat 3 (m - n) := by
  rw [← Nat.sub_add_cancel h, ← sp_add_ofNat, BitVec.add_sub_cancel, Nat.add_sub_cancel]

theorem sp_add_ne (p : BitVec 3) {n : Nat} (h0 : 0 < n) (h8 : n < 8) : p ≠ p + ofNat 3 n := by
  bv_omega

/-- n pops read the n newest entries, newest first, and count SP down by n (47_subroutine.md R271). -/
theorem popAll_eq (n : Nat) (s : State) :
    (popAll n s).1 = (List.range n).map (fun i => rasGet s.ras (s.sp - ofNat 3 i)) ∧
    (popAll n s).2.sp = s.sp - ofNat 3 n := by
  induction n generalizing s with
  | zero => exact ⟨rfl, by simp [popAll]⟩
  | succ n ih =>
    obtain ⟨hl, hs⟩ := ih (popAndReturn s)
    have back (i : Nat) : s.sp - 1 - ofNat 3 i = s.sp - ofNat 3 (i + 1) := by
      rw [BitVec.sub_sub, BitVec.ofNat_add, BitVec.add_comm]; rfl
    refine ⟨?_, by rw [popAll, hs, popAndReturn_sp, back]⟩
    simp only [popAll, hl, List.range_succ_eq_map, List.map_cons, List.map_map, popAndReturn_iar, popAndReturn_ras,
      popAndReturn_sp, Function.comp_def, back]
    simp

/-- A push writes the entry above SP and leaves SP there. -/
theorem pushAll_cons (a : Addr) (as : List Addr) (s : State) :
    ∃ u, pushAll (a :: as) s = pushAll as u ∧ u.sp = s.sp + ofNat 3 1 ∧ u.ras = rasSet s.ras (s.sp + ofNat 3 1) a :=
  ⟨_, rfl, rfl, rfl⟩

theorem pushAll_sp (as : List Addr) (s : State) : (pushAll as s).sp = s.sp + ofNat 3 as.length := by
  induction as generalizing s with
  | nil => simp [pushAll]
  | cons a as ih =>
    obtain ⟨u, hu, hsp, _⟩ := pushAll_cons a as s
    rw [hu, ih, hsp, sp_add_ofNat, List.length_cons, Nat.add_comm]

/-- Pushes write the entries just above SP and no other. -/
theorem rasGet_pushAll_other (as : List Addr) (s : State) {i : BitVec 3}
    (h : ∀ k, k < as.length → i ≠ s.sp + ofNat 3 (1 + k)) : rasGet (pushAll as s).ras i = rasGet s.ras i := by
  induction as generalizing s with
  | nil => rfl
  | cons a as ih =>
    obtain ⟨u, hu, hsp, hras⟩ := pushAll_cons a as s
    have later : ∀ k, k < as.length → i ≠ u.sp + ofNat 3 (1 + k) := fun k hk => by
      rw [hsp, sp_add_ofNat, Nat.add_comm 1 k]
      exact h (k + 1) (Nat.succ_lt_succ hk)
    rw [hu, ih u later, hras, rasGet_rasSet, if_neg (h 0 (Nat.succ_pos _))]

/-- Of eight pushes or fewer each entry is kept: the j-th above the first SP. -/
theorem rasGet_pushAll {as : List Addr} (hl : as.length ≤ 8) (s : State) {j : Nat} (hj : j < as.length) :
    rasGet (pushAll as s).ras (s.sp + ofNat 3 (1 + j)) = as[j] := by
  induction as generalizing s j with
  | nil => exact absurd hj (Nat.not_lt_zero _)
  | cons a as ih =>
    obtain ⟨u, hu, hsp, hras⟩ := pushAll_cons a as s
    simp only [List.length_cons] at hl hj
    cases j with
    | zero =>
      have notAgain : ∀ k, k < as.length → s.sp + ofNat 3 1 ≠ u.sp + ofNat 3 (1 + k) := fun k hk => by
        rw [hsp]
        exact sp_add_ne _ (by omega) (by omega)
      rw [hu, rasGet_pushAll_other as u notAgain, hras, rasGet_rasSet, if_pos rfl]
      rfl
    | succ j =>
      have place : s.sp + ofNat 3 (1 + (j + 1)) = u.sp + ofNat 3 (1 + j) := by
        rw [hsp, sp_add_ofNat, Nat.add_comm j 1]
      rw [hu, place]
      exact ih (by omega) u (by omega)

/-- Up to eight addresses pushed and as many popped: the newest first. -/
theorem popAll_pushAll {as : List Addr} (hl : as.length ≤ 8) (s : State) :
    (popAll as.length (pushAll as s)).1 = as.reverse := by
  rw [(popAll_eq _ _).1, pushAll_sp]
  apply List.ext_getElem (by simp)
  intro i hi _
  simp only [List.length_map, List.length_range] at hi
  rw [List.getElem_map, List.getElem_range, sp_sub_ofNat _ hi.le, List.getElem_reverse,
    ← rasGet_pushAll hl s (by omega)]
  congr 3
  omega

/-- Settles O36: the ninth push goes where the first one went, and the ninth pop reads where the first one read. -/
theorem stackIsEightLevelsLastInFirstOut : Obligations.StackIsEightLevelsLastInFirstOut := by
  refine ⟨fun as s hl => ⟨popAll_pushAll hl s, ?sp⟩, fun a as s hl => ?ninth⟩
  case sp => rw [(popAll_eq _ _).2, pushAll_sp, BitVec.add_sub_cancel]
  case ninth =>
    obtain ⟨u, hu, _, _⟩ := pushAll_cons a as s
    have eight := popAll_pushAll hl.le u
    rw [hl, (popAll_eq _ _).1] at eight
    rw [hu, (popAll_eq _ _).1, List.range_succ, List.map_append, eight, List.map_singleton]
    have wraps : (pushAll as u).sp - ofNat 3 8 = u.sp + ofNat 3 (1 + 7) := by
      rw [pushAll_sp, hl]
      exact BitVec.sub_zero _
    have last : as.getLast?.getD a = as[7] := by
      have newest : as.length - 1 = 7 := by omega
      rw [List.getLast?_eq_getElem?, newest, List.getElem?_eq_getElem (by omega)]
      rfl
    rw [wraps, rasGet_pushAll hl.le u (by omega), last]

end

/-! Input and output -/

/-- What a read of a place says is about the devices and the record alone. -/
theorem readsPlace_congr {p : Place} {op : Byte → BusOp} {v : Byte} {s t u : State} (h : readsPlace p op v s u)
    (he : t.env = u.env) : readsPlace p op v s t := by
  obtain ⟨h1, h2, h3, h4⟩ := h
  exact ⟨he ▸ h1, fun q hq => he ▸ h2 q hq, he ▸ h3, h4⟩

/-- A byte read from a place into a register (48_io.md R300). -/
theorem loadFrom_deviceRead (p : Place) (op : Byte → BusOp) (r : Reg) (s : State) :
    readsPlace p op (regNow r (loadFrom r (deviceRead p op s))) s (loadFrom r (deviceRead p op s)) ∧
    ccOf (loadFrom r (deviceRead p op s)).psl = ccMeaning (regNow r (loadFrom r (deviceRead p op s))) ∧
    onlyCC s.psl (loadFrom r (deviceRead p op s)).psl ∧
    regsKeptBut (fun q => q = r) s (loadFrom r (deviceRead p op s)) ∧
    dataFrame s (loadFrom r (deviceRead p op s)) := by
  obtain ⟨hv, hcc, hp, hr, hd, he⟩ := loadFrom_bus (deviceRead_bus p op s) r (deviceRead p op s).1
  rw [Prod.mk.eta] at hv hcc hp hr hd he
  rw [hv]
  exact ⟨readsPlace_congr (deviceRead_reads p op s) he, hcc, hp, hr, hd⟩

/-- Settles O37. -/
theorem inputsComplete : Obligations.InputsComplete := by
  intro r d s
  obtain ⟨h1, f1⟩ := loadFrom_deviceRead (.port .data) (.portRead .data) r s
  obtain ⟨h2, f2⟩ := loadFrom_deviceRead (.port .control) (.portRead .control) r s
  obtain ⟨h3, f3⟩ := loadFrom_deviceRead (.extended d) (.extRead d) r s
  exact ⟨_, _, _, rfl, rfl, rfl, h1, h2, h3, f1, f2, f3⟩

/-- Settles O38: each output is one record, no more. -/
theorem outputsComplete : Obligations.OutputsComplete := by
  intro r d s
  rw [← readReg_eq_regNow]
  exact ⟨_, _, _, rfl, rfl, rfl, ⟨rfl, rfl⟩, ⟨rfl, rfl⟩, ⟨rfl, rfl⟩⟩

/-- An address from what a memory operation shows of it: ADR13, ADR14 and ADR12 to ADR0 (20_memory.md R80). -/
theorem addr_ext {a b : Addr} (h13 : a.getLsbD 13 = b.getLsbD 13) (h14 : a.getLsbD 14 = b.getLsbD 14)
    (h : offsetOf a = offsetOf b) : a = b := by
  apply BitVec.eq_of_getLsbD_eq
  intro k hk
  rcases Nat.lt_or_ge k 13 with hlt | hge
  · have bit := congrArg (fun x => x.getLsbD k) h
    simpa [offsetOf, hlt] using bit
  · interval_cases k
    · exact h13
    · exact h14

theorem offsetOf_eq_ofNat (a : Addr) : offsetOf a = BitVec.ofNat 13 a.toNat := by
  apply BitVec.eq_of_toNat_eq
  rw [offsetOf_toNat, BitVec.toNat_ofNat]

theorem memorySignals_inj {w : Bool} {a b : Addr} (h : memorySignals w a = memorySignals w b) : a = b := by
  simp only [memorySignals, Signals.mk.injEq, Option.some.injEq, true_and, and_true] at h
  exact addr_ext h.1 h.2.1 h.2.2

theorem portSignals_inj {w : Bool} {p q : Port} (h : portSignals w p = portSignals w q) : p = q := by
  have hdc : decide (p = .data) = decide (q = .data) := by simpa [portSignals] using h
  cases p with
  | data => exact (of_decide_eq_true hdc.symm).symm
  | control => cases q with
    | data => exact absurd hdc (by decide)
    | control => rfl

/-- Settles O39. -/
theorem operationsAreToldApart : Obligations.OperationsAreToldApart := by
  refine ⟨fun a v => ?memory, fun d v => ⟨rfl, rfl, rfl, rfl⟩, fun v => ⟨rfl, rfl, rfl, rfl, rfl⟩, fun p q hs hx => ?apart⟩
  case memory => rw [← offsetOf_eq_ofNat]; exact ⟨rfl, rfl⟩
  case apart =>
    cases p with
    | memRead a _ => cases q with
      | memRead b w => exact ⟨w, by rw [memorySignals_inj hs]⟩
      | _ => simp [signalsOf, memorySignals, portSignals, extendedSignals] at hs
    | memWrite a _ => cases q with
      | memWrite b w => exact ⟨w, by rw [memorySignals_inj hs]⟩
      | _ => simp [signalsOf, memorySignals, portSignals, extendedSignals] at hs
    | portRead n _ => cases q with
      | portRead m w => exact ⟨w, by rw [portSignals_inj hs]⟩
      | _ => simp [signalsOf, memorySignals, portSignals, extendedSignals] at hs
    | portWrite n _ => cases q with
      | portWrite m w => exact ⟨w, by rw [portSignals_inj hs]⟩
      | _ => simp [signalsOf, memorySignals, portSignals, extendedSignals] at hs
    | extRead d _ => cases q with
      | extRead e w => exact ⟨w, by rw [Option.some.inj hx]⟩
      | _ => simp [signalsOf, memorySignals, portSignals, extendedSignals] at hs
    | extWrite d _ => cases q with
      | extWrite e w => exact ⟨w, by rw [Option.some.inj hx]⟩
      | _ => simp [signalsOf, memorySignals, portSignals, extendedSignals] at hs
    | intAck _ => cases q with
      | intAck w => exact ⟨w, rfl⟩
      | _ => simp [signalsOf, memorySignals, portSignals, extendedSignals] at hs

end Sys2Proof
end

section
/-! Steps that run an instruction (30_encoding.md R100; 60_exceptions.md R340, R341): the instruction that plain memory at IAR holds, first bytes with no mnemonic, stores into the next instruction, and the values after RESET. -/

namespace Sys2Proof

open Sys2Proof.Machine

/-- The machine as an instruction of the given bytes finds it: IAR past them, byte 0 in IR, INTREQ noted. -/
def fetched (bs : List Byte) (s : State) : State :=
  { s with iar := forward s.iar bs.length, ir := bs.headD 0, intWaiting := s.env.now.intreq, fetchedAhead := true }

/-- What well-formed bytes decode to, with nothing after them. -/
theorem decode_encode {i : Instr} (hw : i.wellFormed = true) : decode (encode i) = .ok (i, []) := by
  have h := decodeOfEncodeIsTheInstr i [] hw
  rwa [List.append_nil] at h

/-- Fetching and running the instruction whose bytes plain memory holds at IAR. -/
theorem runInstr_of_holdsAt {s : State} {i : Instr} (hw : i.wellFormed = true) (h : holdsAt s s.iar (encode i)) :
    runInstr (senseRequest s) = exec i (fetched (encode i) s) := by
  have hd := decode_encode hw
  have hl := (encode_length i).2
  unfold fetched
  cases hb : encode i with
  | nil => exact absurd (encode_length i).1 (by rw [hb]; decide)
  | cons b0 bs =>
    rw [hb] at h hd hl
    obtain ⟨hp, h0, hrest⟩ := h
    have first : fetchByte (senseRequest s) = (b0, { senseRequest s with iar := nextInPage s.iar }) := by
      rw [fetchByte_plain (s := senseRequest s) hp, ← h0]
      rfl
    have rest : holdsAt { senseRequest s with iar := nextInPage s.iar, ir := b0, fetchedAhead := true } (nextInPage s.iar) bs := by
      refine holdsAt_congr ?_ ?_ _ _ hrest <;> rfl
    rw [runInstr, first]
    refine (runDecoded_of_decode _ hd rest (Nat.le_of_succ_le_succ hl)).trans ?_
    rw [forward_nextInPage]
    rfl

theorem step_of_holdsAt {s : State} {i : Instr} (hw : i.wellFormed = true) (h : holdsAt s s.iar (encode i))
    (hr : s.runState = .run) (hu : unforced s) (hi : interruptAccepted s = false) :
    step s = endStep (exec i (fetched (encode i) s)) := by
  rw [step_instr hr hu hi, runInstr_of_holdsAt hw h]

/-- Settles O48. -/
theorem stepRunsTheDecodedInstr : Obligations.StepRunsTheDecodedInstr :=
  fun _ _ hw h hr hu hi => step_of_holdsAt hw h hr hu hi

/-! First bytes with no mnemonic -/

/-- The machine as the release of a PAUSE wait gives it to the instruction whose first byte is held (60_exceptions.md R355). -/
def released (s : State) : State :=
  { s with iar := nextInPage s.iar, runState := .run, intWaiting := s.env.now.intreq, fetchedAhead := true }

/-- With no remembered request to enter, the release runs the instruction whose first byte is held. -/
theorem leavePause_runs {s : State} (h : (s.intWaiting && !s.ii) = false) :
    leavePause s = runDecoded s.iar s.ir (released s) := by
  rw [leavePause, h, if_neg Bool.false_ne_true]
  rfl

/-- A step that runs the instruction whose first byte is b. -/
theorem step_of_firstByte {s : State} {b : Byte} (hu : unforced s)
    (h : s.runState = .run ∧ interruptAccepted s = false ∧ b = (fetchByte s).1 ∨
      s.runState = .waitPause ∧ (s.intWaiting && !s.ii) = false ∧ b = s.ir) :
    ∃ u : State, step s = endStep (runDecoded s.iar b u) ∧ u.env.platform = s.env.platform := by
  rcases h with ⟨hr, hi, rfl⟩ | ⟨hr, hi, rfl⟩
  · have same : (fetchByte (senseRequest s)).1 = (fetchByte s).1 :=
      (memRead_congr (s := senseRequest s) (t := s) s.iar rfl rfl).1
    refine ⟨{ (fetchByte (senseRequest s)).2 with ir := (fetchByte s).1, fetchedAhead := true }, ?_,
      (fetchByte_bus (senseRequest s)).platform⟩
    rw [step_instr hr hu hi, runInstr, same, senseRequest_iar]
  · exact ⟨released s, by rw [step_released hr hu, leavePause_runs hi], rfl⟩

/-- What follows a first byte with no mnemonic, by the platform's policy (60_exceptions.md R341). -/
theorem endStep_noMnemonic (addr : Addr) (b : Byte) (e : DecodeError) (s : State) :
    (opcodePolicy e s.env.platform = .stop → endStep (noMnemonic addr b e s) = .fault (decodeFault addr b e)) ∧
    (opcodePolicy e s.env.platform = .anyState → ∃ t, endStep (noMnemonic addr b e s) = .next t) := by
  refine ⟨fun h => ?_, fun h => ⟨{ anyState s with env := (anyState s).env.advance }, ?_⟩⟩ <;> rw [noMnemonic, h] <;> rfl

/-- Settles O49: by whether the first byte has a length. -/
theorem onlyElevenFirstBytesFault : Obligations.OnlyElevenFirstBytesFault := by
  intro s b hu h
  obtain ⟨u, hs, hp⟩ := step_of_firstByte hu h
  rw [hs, ← hp]
  refine ⟨fun h0 => ?_, fun hun => ?_, fun h0 hun => ?_⟩
  · have zero : instrLength b = .error .indeterminate := h0 ▸ rfl
    rw [runDecoded_of_error zero]
    exact endStep_noMnemonic s.iar b .indeterminate u
  · rw [runDecoded_of_error (instrLength_unassigned hun)]
    exact endStep_noMnemonic s.iar b (.unassigned b) u
  · obtain ⟨n, hn⟩ := instrLength_assigned h0 hun
    obtain ⟨i, v, he, _⟩ := runDecoded_of_length hn s.iar u
    obtain ⟨t, ht, _⟩ := exec_effect i v
    exact ⟨_, by rw [he, ht, endStep_next]⟩

/-! Stores into the next instruction -/

theorem strOf_wellFormed (m : MemForm) : (strOf m).wellFormed = true := by
  cases m <;> rfl

/-- Settles O59: the store is the last thing its step does, and IAR is where the bytes of the store end. -/
theorem storeIntoNextInstrIsSeen : Obligations.StoreIntoNextInstrIsSeen := by
  intro s t m h hr hu hi ht u hea hram
  have run : step s = endStep (exec (strOf m) u) := step_of_holdsAt (strOf_wellFormed m) h hr hu hi
  rw [ht, exec_strOf, endStep_next] at run
  cases run
  obtain ⟨_, hd, _⟩ := memForm_ea m u
  have iar : (storeAt m.reg (m.ea u)).iar = u.iar := (storeAt_iar _ _).trans hd.1.1
  have kind : (m.ea u).2.env.kindAt u.iar = .ram := (kindAt_congr hd.1.2.2.2.2.2.2.2.1 _).trans hram
  have stored : (storeAt m.reg (m.ea u)).peek u.iar = regNow m.reg (m.ea u).2 := by
    rw [storeAt, hea, peek_memWrite, if_pos ⟨kind, rfl⟩, readReg_eq_regNow]
  have plain : plainAt { storeAt m.reg (m.ea u) with env := (storeAt m.reg (m.ea u)).env.advance } (storeAt m.reg (m.ea u)).iar := by
    refine .inl ((kindAt_congr ?_ _).trans (iar ▸ kind))
    rw [advance_platform, storeAt_platform]
  refine ⟨iar, ?_⟩
  rw [fetchByte_plain plain, ← stored, ← iar]
  rfl

/-! The values RESET gives -/

/-- Settles O55. -/
theorem resetValues : Obligations.ResetValues := ⟨rfl, rfl, rfl, rfl, rfl, rfl⟩

end Sys2Proof
end

section
/-! Interrupts and waits (60_exceptions.md R343 to R355, R376, R377; 20_memory.md R76): the entry's frame, masking, HALT and PAUSE waits, DMA. -/

namespace Sys2Proof

open Sys2Proof.Machine

/-! The frame of an interrupt entry -/

/-- From s to t an interrupt was entered: what changes of the processor, with the new IAR left open, and what does not (60_exceptions.md R346, R347). -/
structure Enters (s t : State) : Prop where
  runState     : t.runState = .run
  ii           : t.ii = true
  intWaiting   : t.intWaiting = false
  ir           : t.ir = 0xBB
  sp           : t.sp = s.sp + 1
  ras          : t.ras = rasSet s.ras (s.sp + 1) s.iar
  regs         : regsKept s t
  psl          : t.psl = s.psl
  flag         : t.flag = s.flag
  fetchedAhead : t.fetchedAhead = s.fetchedAhead
  mem          : t.mem = s.mem
  platform     : t.env.platform = s.env.platform

section
variable {s t u : State}

theorem Enters.pushed (h : Enters s t) : pushed s.iar s t := pushed_of_fields h.sp h.ras

theorem Enters.memKept (h : Enters s t) : memKept s t := fun a => by rw [State.peek, State.peek, h.mem]

/-- The push seen from an earlier state with the same stack. -/
theorem Enters.pushed_of_eq (h : Enters s t) {r : State} (hi : s.iar = r.iar) (hs : s.sp = r.sp) (hr : s.ras = r.ras) :
    Sys2Proof.pushed r.iar r t := pushed_of_fields (hs ▸ h.sp) (by rw [← hi, ← hs, ← hr]; exact h.ras)

theorem Enters.advance (h : Enters s t) : Enters s { t with env := t.env.advance } where
  runState := h.runState
  ii := h.ii
  intWaiting := h.intWaiting
  ir := h.ir
  sp := h.sp
  ras := h.ras
  regs := fun b q => by rw [← h.regs b q]; cases q <;> rfl
  psl := h.psl
  flag := h.flag
  fetchedAhead := h.fetchedAhead
  mem := h.mem
  platform := (advance_platform _).trans h.platform

theorem enters_of_eq {e : Env} (h : t = { s with
      runState := .run, ii := true, intWaiting := false, ir := 0xBB, env := e
      iar := t.iar, sp := s.sp + 1, ras := rasSet s.ras (s.sp + 1) s.iar }) (hp : e.platform = s.env.platform) :
    Enters s t := by
  rw [h]
  exact ⟨rfl, rfl, rfl, rfl, rfl, rfl, fun b q => by cases q <;> rfl, rfl, rfl, rfl, rfl, hp⟩

theorem interruptEntry_enters (s : State) : Enters s (interruptEntry s) := by
  obtain ⟨e, h, hp, _⟩ := interruptEntry_eq s
  exact enters_of_eq h hp

theorem interruptEntry_discarded_enters (s : State) : Enters s (interruptEntry (discardedFetch s)) := by
  obtain ⟨e, h, hp, _⟩ := interruptEntry_discarded s
  exact enters_of_eq h hp

/-! Which steps are an entry, and which are not -/

theorem interruptAccepted_of (hi : s.ii = false) (hq : s.env.now.intreq = true) : interruptAccepted s = true := by
  rw [interruptAccepted, hi, hq]
  rfl

theorem interruptAccepted_of_ii (hi : s.ii = true) : interruptAccepted s = false := by
  rw [interruptAccepted, hi]
  rfl

/-- An accepted request is entered at the next boundary, running or halted (60_exceptions.md R345). -/
theorem step_enters (hu : unforced s) (hi : s.ii = false) (hq : s.env.now.intreq = true) (hr : s.runState ≠ .waitPause) :
    ∃ t, step s = .next t ∧ Enters s t := by
  have accepted := interruptAccepted_of hi hq
  cases h : s.runState with
  | run => exact ⟨_, step_interrupt hu.1 accepted h hu.2, (interruptEntry_discarded_enters s).advance⟩
  | waitHalt => exact ⟨_, step_interrupt_halted hu.1 accepted h, (interruptEntry_enters s).advance⟩
  | waitPause => exact absurd h hr

/-- A remembered request is entered at the release of a PAUSE wait (60_exceptions.md R355). -/
theorem leavePause_enters (hw : s.intWaiting = true) (hi : s.ii = false) : leavePause s = .next (interruptEntry s) := by
  rw [leavePause, hw, hi]
  rfl

theorem step_released_enters (hr : s.runState = .waitPause) (hu : unforced s) (hw : s.intWaiting = true)
    (hi : s.ii = false) : ∃ t, step s = .next t ∧ Enters s t :=
  ⟨_, by rw [step_released hr hu, leavePause_enters hw hi, endStep_next], (interruptEntry_enters s).advance⟩

/-- The release of a PAUSE wait with no remembered request to enter. -/
theorem step_released_runs (hr : s.runState = .waitPause) (hu : unforced s) (h : (s.intWaiting && !s.ii) = false) :
    step s = endStep (runDecoded s.iar s.ir (released s)) := by
  rw [step_released hr hu, leavePause_runs h]

end

/-! Masking and the HALT wait -/

/-- Settles O51. -/
theorem inhibitMasksTheInterrupt : Obligations.InhibitMasksTheInterrupt := by
  intro s h0 hi
  have masked := interruptAccepted_of_ii hi
  refine ⟨fun hr hp => step_instr hr ⟨h0, hp⟩ masked, fun hr => ?halted, fun hr hp => ?paused⟩
  case halted =>
    exact ⟨_, step_halted hr h0 masked, hr, rfl, rfl, rfl, fun b q => by cases q <;> rfl, rfl, hi, rfl, fun a => rfl⟩
  case paused =>
    exact step_released_runs hr ⟨h0, hp⟩ (by rw [hi, Bool.not_true, Bool.and_false])

/-- The next inputs are among those to come, or are the present ones again. -/
theorem advance_cases (e : Env) :
    (e.advance.now = { e.now with resetAfter := 0, dma := [] } ∧ e.advance.later = e.later) ∨
    (e.advance.now ∈ e.later ∧ ∀ i ∈ e.advance.later, i ∈ e.later) := by
  unfold Env.advance
  split
  · exact .inl ⟨rfl, rfl⟩
  · rename_i i t h
    exact .inr ⟨by simp [h], fun j hj => by rw [h]; exact List.mem_cons_of_mem i hj⟩

theorem finished_advance {s : State} (h : finished s) : finished { senseRequest s with env := s.env.advance } := by
  obtain ⟨hr, h0, hq, hl⟩ := h
  rcases advance_cases s.env with ⟨hn, ht⟩ | ⟨hn, ht⟩
  · exact ⟨hr, by simp only [hn]; exact h0, by simp only [hn]; exact hq, by simp only [ht]; exact hl⟩
  · exact ⟨hr, (hl _ hn).1, (hl _ hn).2, fun i hi => hl i (ht i hi)⟩

/-- Moving on to the next inputs changes nothing but the inputs. -/
theorem advance_inputs (e : Env) : { e.advance with now := e.now, later := e.later } = e := by
  unfold Env.advance
  split <;> rfl

/-- Settles O53: the step only notes INTREQ, and the next inputs are again without reset and acceptable interrupt. -/
theorem finishedRunsStayFinished : Obligations.FinishedRunsStayFinished := by
  intro s h
  have masked : interruptAccepted s = false := by
    rcases h.2.2.1 with hi | hq
    · exact interruptAccepted_of_ii hi
    · rw [interruptAccepted, hq, Bool.and_false]
  exact ⟨_, step_halted h.1 h.2.1 masked, finished_advance h, rfl, rfl, advance_inputs s.env⟩

/-! Entering a PAUSE wait -/

section
variable {s : State}

theorem enterPause_of_memRead {m : Byte × State} (h : memRead s.iar (senseRequest s) = m) :
    enterPause s = { m.2 with ir := m.1, runState := .waitPause } := by
  subst h
  rfl

/-- As the wait begins only IR, the latch, the run state and the bus data change. -/
theorem enterPause_eq (s : State) : ∃ (v : Byte) (e : Env),
    enterPause s = { s with runState := .waitPause, intWaiting := s.env.now.intreq, ir := v, env := e } := by
  rcases hm : memRead s.iar (senseRequest s) with ⟨v, u⟩
  have h : u = { senseRequest s with env := u.env } := by
    have bus := (memRead_bus s.iar (senseRequest s)).1
    rwa [hm] at bus
  refine ⟨v, u.env, (enterPause_of_memRead hm).trans ?_⟩
  conv_lhs => rw [h]
  rfl

theorem enterPause_plain (h : plainAt s s.iar) :
    enterPause s = { s with runState := .waitPause, intWaiting := s.env.now.intreq, ir := s.peek s.iar } :=
  enterPause_of_memRead (memRead_plain (s := senseRequest s) h)

end

/-- Settles O56: the byte held is the one the instruction's own fetch would read. -/
theorem pauseIsInvisible : Obligations.PauseIsInvisible := by
  intro s hr h0 h1 hp
  have waits := step_pause hr h0 h1
  rw [enterPause_plain hp] at waits
  refine ⟨_, waits, rfl, rfl, fun b q => by cases q <;> rfl, rfl, ⟨rfl, rfl, rfl⟩, rfl, rfl, rfl, fun a => rfl, ?_⟩
  intro e hu he hw
  have plain : plainAt { s with env := e, intWaiting := e.now.intreq } s.iar := by
    simpa only [plainAt, kindAt_congr he] using hp
  rw [step_released_runs rfl hu hw, runInstr, fetchByte_plain plain]
  simp only [released, hr]
  rfl

/-- Settles O57: by whether the request was noted as the wait began. -/
theorem interruptAndPause : Obligations.InterruptAndPause := by
  refine ⟨fun s hr h0 h1 hi hq => ?seen, fun s hr hw hi h0 => ⟨fun h1 => ?held, fun h1 => ?leaves⟩,
    fun s hr hw hu => ⟨?runs, fun t _ hut hq hi hp => ?after⟩⟩
  case seen =>
    obtain ⟨v, e, he⟩ := enterPause_eq s
    have waits := step_pause hr h0 h1
    rw [he] at waits
    refine ⟨_, waits, rfl, rfl, hq, hi, rfl, rfl, fun hu => ?_⟩
    obtain ⟨u, hs, h⟩ := step_released_enters rfl hu hq hi
    exact ⟨u, hs, h.ii, h.pushed_of_eq rfl rfl rfl, h.runState⟩
  case held =>
    have waits := step_paused hr h0 h1
    rw [dmaWrites_eq] at waits
    exact ⟨_, waits, hr, rfl, hw, hi, rfl, rfl⟩
  case leaves =>
    obtain ⟨u, hs, h⟩ := step_released_enters hr ⟨h0, h1⟩ hw hi
    exact ⟨u, hs, h.ii, h.intWaiting, h.pushed, h.runState, h.regs, h.psl, h.flag, h.memKept⟩
  case runs => exact step_released_runs hr hu (by rw [hw, Bool.false_and])
  case after =>
    obtain ⟨u, hs, h⟩ := step_enters hut hi hq hp
    exact ⟨u, hs, h.ii, h.pushed, h.runState⟩

/-! DMA -/

/-- Where there is RAM a DMA write is a memory write. -/
theorem dmaWrite_of_ram {w : Addr × Byte} {s : State} (h : s.env.kindAt w.1 = .ram) : dmaWrite w s = memWrite w.1 w.2 s := by
  simp only [dmaWrite, memWrite, h]

theorem peek_dmaWrite (w : Addr × Byte) (s : State) (a : Addr) :
    (dmaWrite w s).peek a = if s.env.kindAt w.1 = .ram ∧ a = w.1 then w.2 else s.peek a := by
  rcases dmaWrite_cases w s with ⟨h, _⟩ | ⟨h, e⟩
  · rw [dmaWrite_of_ram h, peek_memWrite]
  · rw [e, if_neg (fun c => h c.1)]

/-- After DMA writes RAM holds the last byte written to each address; nothing else changed (20_memory.md R76). -/
theorem peek_dmaWrites (ws : List (Addr × Byte)) (s : State) (a : Addr) :
    (dmaWrites ws s).peek a = if s.env.kindAt a = .ram then (lastWritten a ws).getD (s.peek a) else s.peek a := by
  induction ws generalizing s with
  | nil => simp [dmaWrites, lastWritten]
  | cons w ws ih =>
    have kind : (dmaWrite w s).env.kindAt a = s.env.kindAt a := kindAt_congr (dmaWrite_ramOnly w s).platform a
    rw [dmaWrites, ih, kind, peek_dmaWrite, lastWritten]
    by_cases hw : w.1 = a
    · subst hw
      by_cases ram : s.env.kindAt w.1 = .ram
      · cases lastWritten w.1 ws <;> simp [ram]
      · simp [ram]
    · cases lastWritten a ws <;> simp [hw, Ne.symm hw]

/-- Settles O58: by induction on the list of writes, in `peek_dmaWrites`. -/
theorem dmaDuringPauseKeepsTheHeldByte : Obligations.DmaDuringPauseKeepsTheHeldByte := by
  intro s hr h0 h1
  have waits := step_paused hr h0 h1
  have mem := peek_dmaWrites s.env.now.dma s
  rw [dmaWrites_eq] at waits mem
  exact ⟨_, waits, hr, rfl, rfl, fun b q => by cases q <;> rfl, rfl, ⟨rfl, rfl, rfl⟩, rfl, rfl, rfl,
    advance_ops _, advance_devices _, mem⟩

end Sys2Proof
end

section
/-! A request waiting when an instruction clears II (60_exceptions.md R349, R350): the instruction's own effect, then the entry at the next boundary. -/

namespace Sys2Proof

open Sys2Proof.Machine

/-- What an instruction that clears II makes of the state s (60_exceptions.md R349). -/
structure ClearsII (i : Instr) (s t : State) : Prop where
  ii       : t.ii = false
  regs     : regsKept s t
  psl      : t.psl = s.psl
  runState : t.runState = s.runState
  /-- RETE pops. -/
  returns  : (∃ v, i = .rete v) → t.iar = rasGet s.ras s.sp ∧ t.sp = s.sp - 1
  goesOn   : (∀ v, i ≠ .rete v) → t.iar = s.iar

theorem psuWrite_clearsII {i : Instr} {x : Byte} {s : State} (hx : x.getLsbD 5 = false) (hi : ∀ v, i ≠ .rete v) :
    ClearsII i s (psuWrite x s) where
  ii := hx
  regs := fun b q => by cases q <;> rfl
  psl := rfl
  runState := rfl
  returns := fun ⟨v, h⟩ => absurd h (hi v)
  goesOn := fun _ => rfl

theorem exec_clearsII {i : Instr} {s : State} (h : clearsII i s) : ∃ t, exec i s = .next t ∧ ClearsII i s t := by
  rcases h with ⟨v, rfl, hv⟩ | ⟨m, rfl, hm⟩ | ⟨rfl, h0⟩
  · exact ⟨_, exec_rete_taken hv, rfl, fun b q => by cases q <;> rfl, rfl, rfl, fun _ => ⟨rfl, rfl⟩, fun h => absurd rfl (h v)⟩
  · refine ⟨_, rfl, psuWrite_clearsII ?_ (fun v h => by cases h)⟩
    rw [BitVec.getLsbD_and, BitVec.getLsbD_not, hm]
    exact Bool.and_false _
  · exact ⟨_, rfl, psuWrite_clearsII h0 (fun v h => by cases h)⟩

theorem clearsII_wellFormed {i : Instr} {s : State} (h : clearsII i s) : i.wellFormed = true := by
  rcases h with ⟨v, rfl, _⟩ | ⟨m, rfl, _⟩ | ⟨rfl, _⟩ <;> rfl

/-- The step of such an instruction, with INTREQ masked until then. -/
theorem step_clearsII {i : Instr} {s t : State} (h : clearsII i s) (hb : holdsAt s s.iar (encode i)) (hr : s.runState = .run)
    (hu : unforced s) (hi : s.ii = true) (ht : step s = .next t) : ClearsII i (fetched (encode i) s) t := by
  obtain ⟨w, hw, c⟩ := exec_clearsII (s := fetched (encode i) s) h
  rw [step_of_holdsAt (clearsII_wellFormed h) hb hr hu (interruptAccepted_of_ii hi), hw, endStep_next] at ht
  cases ht
  exact ⟨c.ii, fun b q => by rw [← c.regs b q]; cases q <;> rfl, c.psl, c.runState, c.returns, c.goesOn⟩

/-- Settles O52: II is clear after the step, so that the next one is the entry. -/
theorem enablingAdmitsTheWaitingRequest : Obligations.EnablingAdmitsTheWaitingRequest := by
  intro s t i h hb hr hu hi ht hut hq
  have c := step_clearsII h hb hr hu hi ht
  have running : t.runState ≠ .waitPause := by rw [c.runState.trans hr]; decide
  obtain ⟨u, hs, e⟩ := step_enters hut c.ii hq running
  have kept : regsKept s u := fun b q => (e.regs b q).trans ((c.regs b q).trans (by cases q <;> rfl))
  refine ⟨c.ii, fun hv => (c.returns hv).1, c.goesOn, u, hs, e.runState, e.ii, e.pushed, kept, e.psl.trans c.psl, fun hv => ?_⟩
  obtain ⟨iar, sp⟩ := c.returns hv
  refine ⟨?_, e.pushed.2.1.trans iar⟩
  rw [e.sp, sp]
  exact BitVec.sub_add_cancel _ _

end Sys2Proof
end

section
/-! What a step does to the environment: the platform and the pins stay, and operations are only added to the record, newest first (48_io.md R300 (e)). Then RESET, at a boundary and in the middle of a step (70_reset_and_hazards.md R380 to R383). -/

namespace Sys2Proof

open Sys2Proof.Machine

/-- From e to f the platform and the pins stayed, and the operations recorded in e are the oldest ones of f. -/
structure Grows (e f : Env) : Prop where
  platform : f.platform = e.platform
  now      : f.now = e.now
  later    : f.later = e.later
  ops      : e.ops <:+ f.ops

theorem Grows.refl (e : Env) : Grows e e := ⟨rfl, rfl, rfl, List.suffix_refl _⟩

theorem Grows.trans {e f g : Env} (h : Grows e f) (k : Grows f g) : Grows e g :=
  ⟨k.platform.trans h.platform, k.now.trans h.now, k.later.trans h.later, h.ops.trans k.ops⟩

theorem Grows.of_eq {e f : Env} (h : f = e) : Grows e f := h ▸ .refl e

section
variable {s t : State}

/-! The bus -/

theorem BusOnly.grows (h : BusOnly s t) (ho : s.env.ops <:+ t.env.ops) : Grows s.env t.env :=
  ⟨h.platform, h.now, h.later, ho⟩

theorem record_grows (op : BusOp) (s : State) : Grows s.env (record op s).env :=
  (record_bus op s).grows (List.suffix_cons _ _)

theorem deviceRead_grows (p : Place) (op : Byte → BusOp) (s : State) : Grows s.env (deviceRead p op s).2.env :=
  (deviceRead_bus p op s).grows ⟨[op (deviceRead p op s).1], (deviceRead_reads p op s).1.symm⟩

theorem memRead_grows (a : Addr) (s : State) : Grows s.env (memRead a s).2.env := by
  unfold memRead
  split
  · exact .refl _
  · exact .refl _
  · exact deviceRead_grows _ _ s
  · exact (drawByte_bus s).grows (List.suffix_refl _)

theorem memWrite_grows (a : Addr) (v : Byte) (s : State) : Grows s.env (memWrite a v s).env := by
  rcases memWrite_cases a v s with ⟨_, e⟩ | ⟨_, e⟩ | ⟨_, e⟩ <;> rw [e]
  · exact .refl _
  · exact record_grows _ s
  · exact .refl _

theorem perform_grows (op : BusOp) (s : State) : Grows s.env (perform op s).env := by
  cases op with
  | memRead a _ => exact memRead_grows a s
  | memWrite a v => exact memWrite_grows a v s
  | portRead p _ => exact deviceRead_grows _ _ s
  | portWrite p v => exact record_grows _ s
  | extRead d _ => exact deviceRead_grows _ _ s
  | extWrite d v => exact record_grows _ s
  | intAck _ => exact deviceRead_grows _ _ s

theorem performAll_grows (ops : List BusOp) (s : State) : Grows s.env (performAll ops s).env := by
  induction ops generalizing s with
  | nil => exact .refl _
  | cons op t ih => exact (perform_grows op s).trans (ih _)

/-! Operands and addresses -/

theorem through_grows (ind : Bool) (a : Addr) (s : State) : Grows s.env (through ind a s).2.env := by
  cases ind
  case false => exact .refl _
  case true => exact (memRead_grows a s).trans (memRead_grows _ _)

theorem memForm_ea_grows (m : MemForm) (s : State) : Grows s.env (m.ea s).2.env := by
  cases m
  case rel => exact through_grows _ _ s
  case abs x a => exact absEA_env x a s ▸ through_grows _ _ s

theorem form_operand_grows (f : Form) (s : State) : Grows s.env (f.operand s).2.env := by
  cases f
  case z => exact .refl _
  case i => exact .refl _
  case m m => exact (memForm_ea_grows m s).trans (memRead_grows _ _)

theorem branchForm_ea_grows (f : BranchForm) (s : State) : Grows s.env (f.ea s).2.env := by
  cases f <;> exact through_grows _ _ s

theorem notTaken_grows (f : BranchForm) (s : State) : Grows s.env (notTaken f.ea s).env := by
  unfold notTaken
  split
  · exact branchForm_ea_grows f s
  · exact .refl _

theorem branchIf_grows (taken : Bool) (f : BranchForm) (s : State) : Grows s.env (branchIf taken f.ea s).env := by
  cases taken
  case false => exact notTaken_grows f s
  case true => exact branchForm_ea_grows f s

theorem callIf_grows (taken : Bool) (f : BranchForm) (s : State) : Grows s.env (callIf taken f.ea s).env := by
  cases taken
  case false => exact notTaken_grows f s
  case true => exact branchForm_ea_grows f s

theorem putResult_grows (r : Reg) (p : Byte × Byte) (s : State) : Grows s.env (putResult r p s).env :=
  .of_eq (by rw [putResult_env, writeReg_env])

theorem loadFrom_grows (r : Reg) (m : Byte × State) : Grows m.2.env (loadFrom r m).env := .of_eq (loadFrom_env r m)

/-- An instruction that counts a register and then branches. -/
theorem count_branchIf_grows (r : Reg) (d : Byte) (taken : Bool) (f : BranchForm) (s : State) :
    Grows s.env (branchIf taken f.ea (countReg r d s)).env :=
  (Grows.of_eq (countReg_env r d s)).trans (branchIf_grows taken f _)

/-! Instructions -/

theorem exec_grows {i : Instr} (h : exec i s = .next t) : Grows s.env t.env := by
  have operand := form_operand_grows (s := s)
  have same : Grows s.env s.env := .refl _
  cases family i
  case lod f => cases (exec_lodOf f s).symm.trans h; exact (operand f).trans (loadFrom_grows _ _)
  case add f => cases (exec_addOf f s).symm.trans h; exact (operand f).trans (putResult_grows _ _ _)
  case sub f => cases (exec_subOf f s).symm.trans h; exact (operand f).trans (putResult_grows _ _ _)
  case and f => cases (exec_andOf f s).symm.trans h; exact (operand f).trans (.of_eq (andTo_env _ _))
  case ior f => cases (exec_iorOf f s).symm.trans h; exact (operand f).trans (.of_eq (iorTo_env _ _))
  case eor f => cases (exec_eorOf f s).symm.trans h; exact (operand f).trans (.of_eq (eorTo_env _ _))
  case com f => cases (exec_comOfForm f s).symm.trans h; exact operand f
  case str m => cases (exec_strOf m s).symm.trans h; exact (memForm_ea_grows m s).trans (memWrite_grows _ _ _)
  case strz r => cases h; exact loadFrom_grows r (_, s)
  case spsu => cases h; exact same
  case spsl => cases h; exact same
  case rrl r => cases h; exact putResult_grows r _ s
  case rrr r => cases h; exact putResult_grows r _ s
  case bct v f => cases (exec_bctOf v f s).symm.trans h; exact branchIf_grows _ f s
  case bcf v f => cases (exec_bcfOf v f s).symm.trans h; exact branchIf_grows _ f s
  case brn r f => cases (exec_brnOf r f s).symm.trans h; exact branchIf_grows _ f s
  case bir r f => cases (exec_birOf r f s).symm.trans h; exact count_branchIf_grows r _ _ f s
  case bdr r f => cases (exec_bdrOf r f s).symm.trans h; exact count_branchIf_grows r _ _ f s
  case bst v f => cases (exec_bstOf v f s).symm.trans h; exact callIf_grows _ f s
  case bsf v f => cases (exec_bsfOf v f s).symm.trans h; exact callIf_grows _ f s
  case bsn r f => cases (exec_bsnOf r f s).symm.trans h; exact callIf_grows _ f s
  case zbrr a => cases h; exact through_grows _ _ s
  case zbsr a => cases h; exact through_grows _ _ s
  case bxa a => cases h; exact through_grows _ _ s
  case bsxa a => cases h; exact through_grows _ _ s
  case retc v => cases h; split <;> exact same
  case rete v => cases h; split <;> exact same
  case redd r => cases h; exact (deviceRead_grows _ _ s).trans (loadFrom_grows r _)
  case redc r => cases h; exact (deviceRead_grows _ _ s).trans (loadFrom_grows r _)
  case rede r d => cases h; exact (deviceRead_grows _ _ s).trans (loadFrom_grows r _)
  case wrtd r => cases h; exact record_grows _ s
  case wrtc r => cases h; exact record_grows _ s
  case wrte r d => cases h; exact record_grows _ s
  case dar r => cases h; exact ⟨by simp, by simp, by simp, by simp⟩
  all_goals cases h; exact same

/-! The parts of a step -/

theorem fetchWhen_grows (has : Bool) (s : State) : Grows s.env (fetchWhen has s).2.env := by
  cases has
  case false => exact .refl _
  case true => exact memRead_grows _ s

theorem noMnemonic_grows {addr : Addr} {b0 : Byte} {e : DecodeError} (h : noMnemonic addr b0 e s = .next t) :
    Grows s.env t.env := by
  have drawn : Grows s.env (countDraw s).env := ⟨rfl, rfl, rfl, List.suffix_refl _⟩
  simp only [noMnemonic] at h
  split at h <;> cases h
  exact drawn.trans (performAll_grows _ _)

theorem runDecoded_grows {addr : Addr} {b0 : Byte} (h : runDecoded addr b0 s = .next t) : Grows s.env t.env := by
  cases hl : instrLength b0 with
  | error e => exact noMnemonic_grows (runDecoded_of_error hl addr s ▸ h)
  | ok n =>
    obtain ⟨i, hi⟩ := (decodeBytes_of_length hl).2.2 (fetchWhen (decide (2 ≤ n)) s).1
      (fetchWhen (decide (3 ≤ n)) (fetchWhen (decide (2 ≤ n)) s).2).1
    simp only [runDecoded, hl, hi] at h
    exact ((fetchWhen_grows _ s).trans (fetchWhen_grows _ _)).trans (exec_grows h)

theorem runInstr_grows (h : runInstr s = .next t) : Grows s.env t.env := by
  have run := runDecoded_grows h
  exact (memRead_grows s.iar s).trans run

theorem prefetch_grows (s : State) : Grows s.env (prefetch s).env := memRead_grows _ s

theorem discardedFetch_grows (s : State) : Grows s.env (discardedFetch s).env := by
  unfold discardedFetch
  split
  · exact prefetch_grows s
  · exact .refl _

theorem enterPause_grows (s : State) : Grows s.env (enterPause s).env := prefetch_grows (senseRequest s)

theorem interruptEntry_grows (s : State) : Grows s.env (interruptEntry s).env :=
  (deviceRead_grows .vector .intAck { s with runState := .run, ii := true, intWaiting := false, ir := 0xBB }).trans
    (through_grows _ _ _)

theorem undisturbed_grows (h : undisturbed s = .next t) : Grows s.env t.env := by
  simp only [undisturbed] at h
  split at h
  case h_1 =>
    simp only [runStep] at h
    split at h
    · cases h; exact enterPause_grows s
    · split at h
      · cases h; exact (discardedFetch_grows s).trans (interruptEntry_grows _)
      · exact runInstr_grows (s := senseRequest s) h
  case h_2 =>
    simp only [haltStep] at h
    split at h <;> cases h
    · exact interruptEntry_grows s
    · exact .refl _
  case h_3 =>
    simp only [pauseStep] at h
    split at h
    · cases h
      rw [dmaWrites_eq]
      exact .refl _
    · simp only [leavePause] at h
      split at h
      · cases h; exact interruptEntry_grows s
      · have run := runDecoded_grows h
        exact run

/-- What a step added to the record. -/
theorem newOps_of_grows (h : Grows s.env t.env) : t.env.ops = (newOps s t).reverse ++ s.env.ops := by
  obtain ⟨new, hnew⟩ := h.ops
  rw [newOps, ← hnew]
  simp

/-! RESET -/

theorem takeReset_runs (h : ¬ (s.runState = .waitPause ∧ s.env.now.pause = true)) : takeReset s = resetChip s := by
  unfold takeReset
  split
  case h_1 hr => rw [if_neg (fun hp => h ⟨hr, hp⟩)]
  all_goals rfl

theorem takeReset_waits (hr : s.runState = .waitPause) (hp : s.env.now.pause = true) :
    takeReset s = enterPause (resetChip s) := by
  rw [takeReset, hr, hp]
  rfl

/-- The state after RESET, by whether a PAUSE wait is entered again (70_reset_and_hazards.md R380, R382). -/
theorem takeReset_restarts (s : State) :
    (takeReset s).iar = 0 ∧ (takeReset s).ii = false ∧ (takeReset s).fetchedAhead = false ∧
      ((takeReset s).runState = .run ∧ (takeReset s).intWaiting = false ∨
        (takeReset s).runState = .waitPause ∧ s.env.now.pause = true ∧ (takeReset s).intWaiting = s.env.now.intreq) := by
  by_cases h : s.runState = .waitPause ∧ s.env.now.pause = true
  · obtain ⟨v, e, he⟩ := enterPause_eq (resetChip s)
    rw [takeReset_waits h.1 h.2, he]
    exact ⟨rfl, rfl, rfl, .inr ⟨rfl, h.2, rfl⟩⟩
  · rw [takeReset_runs h]
    exact ⟨rfl, rfl, rfl, .inl ⟨rfl, rfl⟩⟩

/-- A step with RESET asserted takes the reset from the state of its boundary, or from what it had made when RESET came; the pins are those of the boundary. -/
theorem step_reset_cases (h : s.env.now.reset = true) (ht : step s = .next t) : ∃ w : State,
    t = { takeReset w with env := (takeReset w).env.advance } ∧ w.env.now = s.env.now ∧ (s.env.now.resetAfter = 0 → w = s) := by
  by_cases h0 : s.env.now.resetAfter = 0
  · rw [step_reset h h0] at ht
    cases ht
    exact ⟨s, rfl, rfl, fun _ => rfl⟩
  · cases hu : undisturbed s with
    | next u =>
      rw [step_abandoned h h0 hu] at ht
      cases ht
      refine ⟨_, rfl, ?_, fun c => absurd c h0⟩
      rcases abandonAt_cases s.env.now.resetAfter s u with ⟨_, e⟩ | ⟨_, _, _, _, hp⟩
      · rw [e]; exact (undisturbed_grows hu).now
      · exact hp.2.1
    | fault f =>
      obtain ⟨n, hn⟩ := Nat.exists_eq_succ_of_ne_zero h0
      simp [step, boundary, h, resetStep, hn, hu, endStep] at ht
    | refused f =>
      obtain ⟨n, hn⟩ := Nat.exists_eq_succ_of_ne_zero h0
      simp [step, boundary, h, resetStep, hn, hu, endStep] at ht

theorem takeReset_mem (s : State) : (takeReset s).mem = s.mem := by
  by_cases h : s.runState = .waitPause ∧ s.env.now.pause = true
  · obtain ⟨v, e, he⟩ := enterPause_eq (resetChip s)
    rw [takeReset_waits h.1 h.2, he]
    rfl
  · rw [takeReset_runs h]
    rfl

/-- The release of a PAUSE wait that RESET entered again: a request noted with that RESET first, else the instruction at address 0 (70_reset_and_hazards.md R382, R383). -/
theorem step_restarted (hr : s.runState = .waitPause) (hiar : s.iar = 0) (hii : s.ii = false) (hu : unforced s) :
    step s = if s.intWaiting then endStep (.next (interruptEntry s))
      else endStep (runDecoded 0 s.ir { s with iar := 1, runState := .run, intWaiting := s.env.now.intreq, fetchedAhead := true }) := by
  cases hw : s.intWaiting
  case false =>
    rw [step_released_runs hr hu (by rw [hw]; rfl), released, hiar]
    rfl
  case true =>
    rw [step_released hr hu, leavePause_enters hw hii]
    rfl

end

/-- Settles O54: what RESET gives comes from `takeReset`, whatever it is taken from. -/
theorem resetRestartsTheProcessor : Obligations.ResetRestartsTheProcessor := by
  intro s h
  refine ⟨fun h0 => ⟨_, step_reset h h0⟩, fun t ht => ?_⟩
  obtain ⟨w, rfl, hn, hw⟩ := step_reset_cases h ht
  obtain ⟨hiar, hii, hf, hrun⟩ := takeReset_restarts w
  rw [hn] at hrun
  refine ⟨hiar, hii, hf, hrun, fun h0 => ?_⟩
  obtain rfl := hw h0
  refine ⟨fun runs => ?runs, fun ⟨hr, hp⟩ => ?waits⟩
  case runs => exact ⟨by rw [takeReset_runs runs]; rfl, fun a => congrArg (storedByte · a) (takeReset_mem w)⟩
  case waits =>
    rcases hrun with ⟨running, _⟩ | ⟨waiting, _, noted⟩
    · rw [takeReset_waits hr hp] at running
      cases running
    · refine ⟨waiting, fun a => congrArg (storedByte · a) (takeReset_mem w), fun plain => ?held, fun hu => ?released⟩
      case held =>
        rw [takeReset_waits hr hp, enterPause_plain (s := resetChip w) plain]
        rfl
      case released =>
        rw [← noted]
        exact step_restarted waiting hiar hii hu

/-- Settles O60: by whether the step had gone on past all its operations. -/
theorem resetAbandonsTheStep : Obligations.ResetAbandonsTheStep := by
  intro s u h h0 _ hp hu
  have grows := undisturbed_grows hu
  have whole := newOps_of_grows grows
  have resets := step_abandoned h h0 hu
  rcases abandonAt_cases s.env.now.resetAfter s u with ⟨hlt, e⟩ | ⟨hle, hm, _, hops, hpins⟩
  · have quietPause : u.env.now.pause ≠ true := by rw [grows.now, hp]; decide
    rw [e, takeReset_runs (fun c => quietPause c.2)] at resets
    refine ⟨_, resets, rfl, rfl, rfl, whole, ?_, fun c => absurd hlt (Nat.not_lt.mpr c), fun _ a => rfl⟩
    rw [advance_ops, List.take_of_length_le hlt.le, ← whole]
    rfl
  · have quietPause : (abandonAt s.env.now.resetAfter s u).env.now.pause ≠ true := by rw [hpins.2.1, hp]; decide
    rw [takeReset_runs (fun c => quietPause c.2)] at resets
    refine ⟨_, resets, rfl, rfl, rfl, whole, ?_, fun _ a => congrArg (storedByte · a) hm, fun c => absurd c (Nat.not_lt.mpr hle)⟩
    rw [advance_ops, ← hops]
    rfl

end Sys2Proof
end

section
/-! What taking an interrupt does outside the processor (60_exceptions.md R346 to R348, R358): the early read of the return address, the acknowledge, the pointer of an indirect vector. -/

namespace Sys2Proof

open Sys2Proof.Machine

/-- The entry is one after an instruction with a device at the return address, so that the device was read early (70_reset_and_hazards.md R400 (d)). -/
def Early (s : State) : Prop := s.runState = .run ∧ s.fetchedAhead = true ∧ s.env.kindAt s.iar = .device

/-- From s to u the early read was made, where there is one. -/
structure EarlyRead (s u : State) : Prop where
  mem  : u.mem = s.mem
  pins : pinsKept s u
  kept : answersKeptBut (fun q => Early s ∧ q = .memory s.iar) s u
  read : Early s → ∃ b, u.env.ops = .memRead s.iar b :: s.env.ops
  none : ¬ Early s → u.env.ops = s.env.ops

/-- From s to w the early read and then the acknowledge were made, which gave the vector byte v. -/
structure Acknowledged (s : State) (v : Byte) (w : State) : Prop where
  byte   : ∀ b, (answersOf .vector s.env.devices).head? = some b → v = b
  mem    : w.mem = s.mem
  pins   : pinsKept s w
  vector : answersOf .vector w.env.devices = (answersOf .vector s.env.devices).tail
  kept   : answersKeptBut (fun q => q = .vector ∨ Early s ∧ q = .memory s.iar) s w
  early  : Early s → ∃ b, w.env.ops = .intAck v :: .memRead s.iar b :: s.env.ops
  late   : ¬ Early s → w.env.ops = .intAck v :: s.env.ops

section
variable {s t u w : State} {v : Byte}

/-! The early read -/

theorem earlyRead_of_not_early (h : ¬ Early s) (bus : BusOnly s u) (ho : u.env.ops = s.env.ops)
    (hd : u.env.devices = s.env.devices) : EarlyRead s u where
  mem := bus.mem
  pins := bus.2
  kept := fun _ _ => by rw [hd]
  read := fun e => absurd e h
  none := fun _ => ho

/-- A read of an address that is no device's is told to no device. -/
theorem memRead_untold {a : Addr} (h : s.env.kindAt a ≠ .device) :
    (memRead a s).2.env.ops = s.env.ops ∧ (memRead a s).2.env.devices = s.env.devices := by
  unfold memRead
  split
  · exact ⟨rfl, rfl⟩
  · exact ⟨rfl, rfl⟩
  · contradiction
  · exact ⟨rfl, rfl⟩

/-- A read of a device's address is a read of that place. -/
theorem memRead_told {a : Addr} (h : s.env.kindAt a = .device) :
    readsPlace (.memory a) (.memRead a) (memRead a s).1 s (memRead a s).2 := by
  rw [memRead, h]
  exact deviceRead_reads (.memory a) (.memRead a) s

theorem discardedFetch_earlyRead (hr : s.runState = .run) : EarlyRead s (discardedFetch s) := by
  rcases discardedFetch_cases s with ⟨hf, e⟩ | ⟨hf, e⟩ <;> rw [e]
  · exact earlyRead_of_not_early (fun h => Bool.false_ne_true (hf.symm.trans h.2.1)) (.refl s) rfl rfl
  · have bus := memRead_bus s.iar s
    by_cases kind : s.env.kindAt s.iar = .device
    · obtain ⟨ops, kept, _, _⟩ := memRead_told kind
      exact ⟨bus.mem, bus.2, fun q hq => kept q (fun c => hq ⟨⟨hr, hf, kind⟩, c⟩), fun _ => ⟨_, ops⟩,
        fun h => absurd ⟨hr, hf, kind⟩ h⟩
    · obtain ⟨ops, devices⟩ := memRead_untold kind
      exact ⟨bus.mem, bus.2, fun q _ => by rw [devices], fun h => absurd h.2.2 kind, fun _ => ops⟩

theorem halted_earlyRead (hr : s.runState = .waitHalt) : EarlyRead s s :=
  earlyRead_of_not_early (fun h => absurd (hr.symm.trans h.1) (by decide)) (.refl s) rfl rfl

/-! The acknowledge -/

theorem EarlyRead.acknowledged (h : EarlyRead s u) (hm : w.mem = u.mem) (hp : pinsKept u w)
    (hr : readsPlace .vector .intAck v u w) : Acknowledged s v w := by
  obtain ⟨ops, kept, vector, byte⟩ := hr
  have same : answersOf .vector u.env.devices = answersOf .vector s.env.devices := h.kept _ (fun c => by cases c.2)
  rw [same] at vector byte
  refine ⟨byte, hm.trans h.mem, ⟨hp.1.trans h.pins.1, hp.2.1.trans h.pins.2.1, hp.2.2.trans h.pins.2.2⟩, vector,
    fun q hq => ?_, fun e => ?_, fun e => ?_⟩
  · obtain ⟨notVector, notEarly⟩ := not_or.mp hq
    exact (kept q notVector).trans (h.kept q notEarly)
  · obtain ⟨b, hb⟩ := h.read e
    exact ⟨b, by rw [ops, hb]⟩
  · rw [ops, h.none e]

/-- The entry goes where the zero-relative address of the vector byte is, once the acknowledge is made. -/
theorem interruptEntry_acknowledges (h : EarlyRead s u) : ∃ v w, Acknowledged s v w ∧
    (interruptEntry u).iar = (zeroRelEA (RelArg.ofByte v) w).1 ∧
    (interruptEntry u).env = (zeroRelEA (RelArg.ofByte v) w).2.env := by
  let ready : State := { u with runState := .run, ii := true, intWaiting := false, ir := 0xBB }
  have bus := acknowledge_bus ready
  have reads : readsPlace .vector .intAck (acknowledge ready).1 u (acknowledge ready).2 := deviceRead_reads .vector .intAck ready
  exact ⟨(acknowledge ready).1, (acknowledge ready).2, h.acknowledged bus.mem bus.2 reads, rfl, rfl⟩

/-- The step that takes an interrupt, in the RUN state or a HALT wait: what it does to the processor and outside it. -/
theorem step_acknowledges (h0 : s.env.now.reset = false) (hi : s.ii = false) (hq : s.env.now.intreq = true)
    (hr : s.runState = .run ∧ s.env.now.pause = false ∨ s.runState = .waitHalt) :
    ∃ t v w, step s = .next t ∧ Enters s t ∧ Acknowledged s v w ∧ t.iar = (zeroRelEA (RelArg.ofByte v) w).1 ∧
      t.env.ops = (zeroRelEA (RelArg.ofByte v) w).2.env.ops ∧
      t.env.devices = (zeroRelEA (RelArg.ofByte v) w).2.env.devices := by
  have accepted := interruptAccepted_of hi hq
  rcases hr with ⟨run, hp⟩ | halt
  · obtain ⟨v, w, ack, iar, env⟩ := interruptEntry_acknowledges (discardedFetch_earlyRead run)
    exact ⟨_, v, w, step_interrupt h0 accepted run hp, (interruptEntry_discarded_enters s).advance, ack, iar,
      by rw [advance_ops, env], by rw [advance_devices, env]⟩
  · obtain ⟨v, w, ack, iar, env⟩ := interruptEntry_acknowledges (halted_earlyRead halt)
    exact ⟨_, v, w, step_interrupt_halted h0 accepted halt, (interruptEntry_enters s).advance, ack, iar,
      by rw [advance_ops, env], by rw [advance_devices, env]⟩

/-! The target -/

/-- The address the displacement of a vector byte gives, counted from byte 0 of page 0 (20_memory.md R79). -/
theorem zeroRel_address (d : BitVec 7) (w : State) : (zeroRelEA ⟨false, d⟩ w).1 = BitVec.ofInt 15 (d.toInt % 8192) := by
  have h := zeroRelEA_direct_toNat d w
  apply BitVec.eq_of_toNat_eq
  rw [BitVec.toNat_ofInt]
  omega

/-- With the pointer of an indirect vector in plain memory, the target is known and the pointer reads change nothing. -/
theorem vector_target (hm : w.mem = s.mem) (hp : w.env.platform = s.env.platform)
    (plain : v.getLsbD 7 = true →
      plainAt s (BitVec.ofInt 15 ((v.extractLsb' 0 7).toInt % 8192)) ∧
      plainAt s (nextInPage (BitVec.ofInt 15 ((v.extractLsb' 0 7).toInt % 8192)))) :
    (zeroRelEA (RelArg.ofByte v) w).2 = w ∧
    (v.getLsbD 7 = false → ((zeroRelEA (RelArg.ofByte v) w).1.toNat : Int) = (v.extractLsb' 0 7).toInt % 8192) ∧
    (v.getLsbD 7 = true → (zeroRelEA (RelArg.ofByte v) w).1.toNat =
      256 * ((s.peek (BitVec.ofInt 15 ((v.extractLsb' 0 7).toInt % 8192))).toNat % 128) +
        (s.peek (nextInPage (BitVec.ofInt 15 ((v.extractLsb' 0 7).toInt % 8192)))).toNat) := by
  have plainIn {a : Addr} (h : plainAt s a) : plainAt w a := by rwa [plainAt, kindAt_congr hp a]
  cases hv : v.getLsbD 7
  case false =>
    rw [RelArg.ofByte, hv]
    exact ⟨rfl, fun _ => zeroRelEA_direct_toNat _ w, fun h => by cases h⟩
  case true =>
    obtain ⟨h0, h1⟩ := plain hv
    rw [RelArg.ofByte, hv, zeroRelEA_indirect, zeroRel_address, indirect_plain (plainIn h0) (plainIn h1)]
    refine ⟨rfl, fun h => (by cases h), fun _ => ?_⟩
    rw [pointer_toNat, State.peek, State.peek, hm]
    rfl

end

/-- Settles O50: the processor's part is `Enters`, the devices' part `Acknowledged`, and in plain memory the pointer reads add nothing to it. -/
theorem interruptEntry : Obligations.InterruptEntry := by
  intro s h0 hi hq hr
  obtain ⟨t, v, w, hs, e, ack, iar, ops, devices⟩ := step_acknowledges h0 hi hq hr
  refine ⟨t, hs, e.runState, e.ii, e.intWaiting, e.ir, e.pushed, e.fetchedAhead, e.regs, e.psl, e.flag, e.memKept, e.platform,
    ⟨v, w, ack.byte, fun a => congrArg (storedByte · a) ack.mem, ack.pins, ack.vector, ack.kept, ack.early, ack.late,
      iar, ops, devices⟩, fun v' rest answers => ?known⟩
  case known =>
    obtain rfl : v = v' := ack.byte v' (by rw [answers]; rfl)
    intro d p early plain
    obtain ⟨here, direct, indirect⟩ := vector_target ack.mem ack.pins.1 plain
    rw [here] at ops devices
    refine ⟨fun h => ?_, fun h => ?_, ?_, fun q h => ?_, fun h => ?_, fun h => ?_⟩
    · rw [iar]; exact direct h
    · rw [iar]; exact indirect h
    · rw [devices, ack.vector, answers]; rfl
    · rw [devices]; exact ack.kept q h
    · rw [ops]; exact ack.early h
    · rw [ops]; exact ack.late h

end Sys2Proof
end
